-- ==== Sys2Proof/Word.lean ====
section
/-! DEFINITION. The two word widths of the block and its companions: a byte (R4) and a 16-bit field (R33). -/

namespace Sys2Proof

/-- A byte: a received byte, a buffer cell, the length, a command (R4, R7). Bit 7 is the most significant. -/
abbrev Byte := BitVec 8

/-- A 16-bit field of the sensor record: `distance` and `crosstalk` (R110). -/
abbrev Half := BitVec 16

end Sys2Proof
end

