-- ==== Sys2Proof/Config.lean ====
section
/-! DEFINITION. The implementation's parameters (R3, R4): the four protocol parameters with the values this hardware
takes, the constants derived from them, and the two parameters the spec leaves open (R19, R119), which have no body. -/

namespace Sys2Proof.Config

/-- The configuration record of R3. -/
structure Params where
  header1   : Byte
  header2   : Byte
  endMarker : Byte
  maxFrame  : Nat
  deriving DecidableEq, Repr

/-- The values this hardware takes (R3, D23; log 12: the literals are unaudited). -/
def hw : Params where
  header1   := 0x55
  header2   := 0xAA
  endMarker := 0xFA
  maxFrame  := 32

/-- `HEADER1`, the first header byte (R3, R16). -/
def header1 : Byte := hw.header1

/-- `HEADER2`, the second header byte (R3, R16). -/
def header2 : Byte := hw.header2

/-- `END_MARKER`, the trailer byte (R3, R16). -/
def endMarker : Byte := hw.endMarker

/-- `MAX_FRAME`, the capacity of the receive buffer and the largest legal total size (R3). -/
def maxFrame : Nat := hw.maxFrame

/-- `HDR_LEN` (R3): header1, header2, command, length. -/
def hdrLen : Nat := 4

/-- `OVERHEAD` (R3): `HDR_LEN` and the one end-marker byte. -/
def overhead : Nat := hdrLen + 1

/-- `MAX_PAYLOAD` (R3). -/
def maxPayload : Nat := maxFrame - overhead

/-- `BUF_INIT` (R19, D7, U7): what cell `i` reads as while nothing has written it since reset number `epoch`. A free
value: the spec gives none and says "a model must not assume zero" (R176). DESIGN CHOICE, log 4 (safe). -/
opaque bufInit : (epoch : Nat) → (i : Nat) → Byte

/-- `INTERP_LEN_CHECK` (R119, D20, U13): whether the interpreter compares the length byte with what the command needs.
An open parameter of the spec: no value is chosen. Log 5 (safe). -/
opaque interpLenCheck : Bool

end Sys2Proof.Config
end

