-- ==== Sys2Proof/Machine/Flags.lean ====
section
/-! DEFINITION. The condition bits of the frame validator (R100 to R104): pure predicates on bytes, of which the header
and length conditions gate the parser and the trailer condition is only reported (R102). -/

namespace Sys2Proof.Machine

open Sys2Proof

/-- `Header1OK(b)` (R100): all eight bits are compared. -/
def header1OK (b : Byte) : Bool := b == Config.header1

/-- `Header2OK(b)` (R100). -/
def header2OK (b : Byte) : Bool := b == Config.header2

/-- `LengthOK(L)` (R101): `L + 5 <= MAX_FRAME` on naturals, so the sum never wraps (R56, R171, D4). -/
def lengthOK (l : Byte) : Bool := decide (l.toNat + Config.overhead ≤ Config.maxFrame)

/-- `EndOK(b)` (R102), the bit `end_ok` of T11 (R21): reported with the dispatch, gating nothing. -/
def endOK (b : Byte) : Bool := b == Config.endMarker

/-- Byte `i` of a stored frame. A frame handed to the validator has the byte; past its end the predicates below are
false by their length conditions. -/
def frameByte? (f : List Byte) (i : Nat) : Option Byte := f[i]?

/-- `HeaderOK(f)` on a stored frame (R100). -/
def headerOK (f : List Byte) : Bool :=
  frameByte? f 0 == some Config.header1 && frameByte? f 1 == some Config.header2

/-- `LengthOK(f[3])` and `n == f[3] + 5` on a stored frame of `n` bytes (R103). -/
def frameLengthOK (f : List Byte) (n : Nat) : Bool :=
  match frameByte? f 3 with
  | some l => lengthOK l && n == l.toNat + Config.overhead
  | none => false

/-- `FrameValid(f, n)` (R103): a definition, not the condition under which the parser dispatches (C1). -/
def frameValid (f : List Byte) (n : Nat) : Bool :=
  headerOK f && frameLengthOK f n && frameByte? f (n - 1) == some Config.endMarker

end Sys2Proof.Machine
end

