-- ==== Sys2Proof/Syntax.lean ====
section
/-! DEFINITION. The names an instruction is made of, and the instructions: one constructor for each row of
spec/opcode_table.json (R51, R54, R61, R125). -/

namespace Sys2Proof

/-- `ParserState` (R10, R11): which byte of a frame the next received byte is taken as. Codes 6 and 7 name no state and
cannot be written down (R11, U9). -/
inductive ParserState where
  | awaitingHeader1
  | awaitingHeader2
  | awaitingCommand
  | awaitingLength
  | awaitingPayload
  | awaitingEnd
  deriving DecidableEq, Repr

/-- `Command` (R54, R124): the six enumerated command codes. -/
inductive Command where
  | measure
  | crosstalkCorrection
  | offsetCorrection
  | reset
  | getFactoryDefaultSettings
  | getProductInfo
  deriving DecidableEq, Repr

/-- The instructions. A `STEP` row is one received byte read in one parser state (R51); it carries the byte where the
row does not fix it. A `FRAME_CMD` row is what the interpreter does for one command byte (R112). `REQ` is the encoder
(R125), on one of the six commands (R124). -/
inductive Instr where
  /-- T1 `H1_MATCH` (R70): the byte is `HEADER1`. -/
  | h1Match
  /-- T2 `H1_IGNORE` (R71): the byte is not `HEADER1`. -/
  | h1Ignore (b : Byte)
  /-- T3 `H2_MATCH` (R72): the byte is `HEADER2`. -/
  | h2Match
  /-- T4 `H2_RESYNC` (R73): the byte is not `HEADER2`. -/
  | h2Resync (b : Byte)
  /-- T5 `CMD_STORE` (R80). -/
  | cmdStore (b : Byte)
  /-- T6 `LEN_PAYLOAD` (R81): a length from 1 to 27. -/
  | lenPayload (b : Byte)
  /-- T7 `LEN_EMPTY` (R82): the byte is 0. -/
  | lenEmpty
  /-- T8 `LEN_REJECT` (R83): a length from 28 to 255. -/
  | lenReject (b : Byte)
  /-- T9 `PAY_MORE` (R90). -/
  | payMore (b : Byte)
  /-- T10 `PAY_LAST` (R91). -/
  | payLast (b : Byte)
  /-- T11 `END_DISPATCH` (R92). -/
  | endDispatch (b : Byte)
  /-- `Measure` (R113), command byte 0x81. -/
  | measure
  /-- `CrosstalkCorrection` (R117), command byte 0x82. -/
  | crosstalkCorrection
  /-- `OffsetCorrection` (R117), command byte 0x83. -/
  | offsetCorrection
  /-- `Reset` (R114), command byte 0x84. -/
  | reset
  /-- `GetFactoryDefaultSettings` (R115), command byte 0x85. -/
  | getFactoryDefaultSettings
  /-- `GetProductInfo` (R116), command byte 0x86. -/
  | getProductInfo
  /-- `OTHER_COMMAND` (R117): any command byte that is none of the six codes. -/
  | otherCommand (c : Byte)
  /-- `REQ` (R125): the encoder's five-byte request. -/
  | req (c : Command)
  deriving DecidableEq, Repr

end Sys2Proof
end

