-- ==== Sys2Proof/Machine/Operands.lean ====
section
/-! DEFINITION. Operand assembly: the state codes (R11), the command codes (R54), the 16-bit big-endian fields (R33,
R55), the wire offsets that are the buffer's address map (R37, R53), and the payload each command needs (R112). -/

namespace Sys2Proof.Machine

open Sys2Proof

/-- The 3-bit code of a parser state (R11), also the value of port `state_o` (R20). -/
def stateCode (st : ParserState) : BitVec 3 :=
  match st with
  | .awaitingHeader1 => 0
  | .awaitingHeader2 => 1
  | .awaitingCommand => 2
  | .awaitingLength  => 3
  | .awaitingPayload => 4
  | .awaitingEnd     => 5

/-- The parser state of a code; 6 and 7 name none (R11, U9), nor does any larger number. -/
def stateOfCode (n : Nat) : Option ParserState :=
  match n with
  | 0 => some .awaitingHeader1
  | 1 => some .awaitingHeader2
  | 2 => some .awaitingCommand
  | 3 => some .awaitingLength
  | 4 => some .awaitingPayload
  | 5 => some .awaitingEnd
  | _ => none

/-- The wire value of a command (R54, R124). -/
def commandCode (c : Command) : Byte :=
  match c with
  | .measure                   => 0x81
  | .crosstalkCorrection       => 0x82
  | .offsetCorrection          => 0x83
  | .reset                     => 0x84
  | .getFactoryDefaultSettings => 0x85
  | .getProductInfo            => 0x86

/-- The command a byte is the wire value of, if it is one of the six (R54). -/
def commandOfCode (b : Byte) : Option Command :=
  if b = 0x81 then some .measure
  else if b = 0x82 then some .crosstalkCorrection
  else if b = 0x83 then some .offsetCorrection
  else if b = 0x84 then some .reset
  else if b = 0x85 then some .getFactoryDefaultSettings
  else if b = 0x86 then some .getProductInfo
  else none

/-- `BE16` (R7, R33): the byte at the lower index is the more significant. -/
def be16 (hi lo : Byte) : Half := hi ++ lo

/-- Buffer index of the command byte (R37). -/
def commandIndex : Fin 32 := 2

/-- Buffer index of the length byte `L` (R14, R37). -/
def lengthIndex : Fin 32 := 3

/-- Buffer index of payload offset `k` (R37, opening of 44_companion_blocks.md). The interpreter's offsets are 0 to 6. -/
def payloadIndex (k : Fin 7) : Fin 32 := ⟨4 + k.val, by omega⟩

/-- `MinLen(c)` (R112, R119): the payload a command's shape needs. The two commands without a documented shape have
none in the spec, and no rule reads their entry: it is used only where a frame is set up (Fetch.lean). -/
def minLen (c : Command) : Nat :=
  match c with
  | .measure                   => 3
  | .reset                     => 0
  | .getFactoryDefaultSettings => 7
  | .getProductInfo            => 3
  | .crosstalkCorrection       => 0
  | .offsetCorrection          => 0

end Sys2Proof.Machine
end

