-- ==== Sys2Proof/Machine/State.lean ====
section
/-! DEFINITION. The machine's state as plain data: the block's four items (R10, R12, R15, R17), the companions' sensor
record (R110), and the model's own fields (pending inputs, observations, the reset count). -/

namespace Sys2Proof.Machine

open Sys2Proof

/-- The receive buffer's written cells (R15, R30): (index, byte) pairs, indices strictly rising and below 32. An index
that is not listed is a cell nothing has written since reset; it reads as the free value `BUF_INIT` (log 4). -/
abbrev Memory := List Host.Cell

/-- The cause of a resynchronization (R141): `BadHeader2` by T4, `OversizeLength` by T8. -/
inductive ResyncCause where
  | badHeader2
  | oversizeLength
  deriving DecidableEq, Repr

/-- The output events of R8: the block's observable output for a step. No rule reads them. -/
inductive Event where
  /-- `Ignored(b)`, by T2 (R71). -/
  | ignored (b : Byte)
  /-- `Stored(i, b)`: byte `b` was written to cell `i` (R31). -/
  | stored (i : Fin 32) (b : Byte)
  /-- `Resync(cause)` (R144). -/
  | resync (cause : ResyncCause)
  /-- `Dispatch(size, snapshot, end_ok)` (R93). -/
  | dispatch (size : Nat) (snapshot : List Byte) (endOk : Bool)
  /-- `InterpResult(ok)` (R94). -/
  | interpResult (ok : Bool)
  /-- `Rearm` (R95). -/
  | rearm
  deriving DecidableEq, Repr

/-- `SensorState` (R110): the latest decoded readings, raw wire bytes, and the unread flag. -/
structure SensorState where
  distance    : Half
  errorCode   : Byte
  calibration : Byte
  portMode    : Byte
  firmware    : Byte
  productType : Byte
  offset0     : Byte
  offset1     : Byte
  offset2     : Byte
  offset3     : Byte
  crosstalk   : Half
  unread      : Bool
  deriving DecidableEq, Repr

/-- `SensorState` at link initialization (R111, D21): every field 0, `unread` included. -/
def SensorState.initial : SensorState where
  distance    := 0
  errorCode   := 0
  calibration := 0
  portMode    := 0
  firmware    := 0
  productType := 0
  offset0     := 0
  offset1     := 0
  offset2     := 0
  offset3     := 0
  crosstalk   := 0
  unread      := false

/-- The consumer's accessors (R120). `distance`, `port`, `firmware` and `calibration` are named by the spec; it implies
accessors for the remaining fields and names none (DEDUCED, log 13). -/
inductive Accessor where
  | distance
  | port
  | firmware
  | calibration
  | errorCode
  | productType
  | offset (k : Fin 4)
  | crosstalk
  deriving DecidableEq, Repr

/-- What a consumer's operation returned (R120, R121): a 16-bit field, an 8-bit field, or the unread flag. -/
inductive Returned where
  | half (f : Accessor) (v : Half)
  | byte (f : Accessor) (v : Byte)
  | unread (r : Bool)
  deriving DecidableEq, Repr

/-- What the outside world and the normal context may do between steps (R146, R149, R161, R162, R166, R167). -/
inductive Input where
  /-- The Transport delivers a byte: port `rx_valid` with `rx_data` (R20, R146). -/
  | byte (b : Byte)
  /-- The host asserts `rst` (R161). -/
  | resetAssert
  /-- The host releases `rst`: the block arms the Transport for the first byte (R162, D8). -/
  | resetRelease
  /-- The sender encodes a command and hands the frame to the Transport (R125, R126). -/
  | send (c : Command)
  /-- The consumer calls an accessor (R120). -/
  | read (f : Accessor)
  /-- The consumer calls `takeUnreadFlag()` (R121). -/
  | takeUnread
  deriving DecidableEq, Repr

/-- The whole state. The first five fields are the spec's (R10, R12, R15, R17, R110); the rest are the model's own. -/
structure State where
  /-- `state` (R10). -/
  state    : ParserState
  /-- `cursor`, 0 to 32 inclusive (R4, R12). -/
  cursor   : Fin 33
  /-- `buf[0..31]`: the cells written since reset (R15). -/
  buf      : Memory
  /-- `armed` (R17). -/
  armed    : Bool
  /-- The companion record (R110). -/
  sensor   : SensorState
  /-- MODEL: how many resets have been applied; selects the `BUF_INIT` values (R161, log 4). -/
  epoch    : Nat
  /-- MODEL: the pending inputs, in the order in which the agents move (R38, log 2). -/
  input    : List Input
  /-- MODEL: the concatenated event trace, an observation (R8, R177, log 3). -/
  trace    : List Event
  /-- MODEL: what the consumer's operations returned, oldest first (R120, R121, log 3). -/
  returned : List Returned
  /-- MODEL: the frames handed to `Transport.send`, oldest first (R126, log 11). -/
  sent     : List (List Byte)
  deriving DecidableEq, Repr

/-- The block never faults (R140). The one fault names what R34 says must never be a silent wrap. -/
inductive Fault where
  /-- Raised by a store while `cursor` is 32, that is at index 32 (R34): no state that a run from reset reaches has it
  (R13). Safe: the model stops where the spec says nothing can come (log 8). -/
  | storeOutOfRange (index : Nat)
  deriving DecidableEq, Repr

/-- What the model has no step for. -/
inductive Refusal where
  /-- An instruction whose meaning is not modelled yet; raised by exec's arms only. Safe. -/
  | notModelled (mnemonic : String)
  /-- A byte offered while `armed = 0`: "A byte offered while `armed = 0` has no step" (R170, U11, D15). Raised by the
  start of a `STEP` instruction. Unsafe in the direction R170 names: a Transport that does deliver such a byte is not
  modelled (log 7). -/
  | byteNotArmed
  deriving DecidableEq, Repr

/-- The machine right after reset (R19, R160): `AwaitingHeader1`, cursor 0, no cell written, not armed until the boot
sequence has run (R162), the sensor record all zero, no event pending. -/
def State.reset : State where
  state    := .awaitingHeader1
  cursor   := 0
  buf      := []
  armed    := false
  sensor   := SensorState.initial
  epoch    := 0
  input    := []
  trace    := []
  returned := []
  sent     := []

end Sys2Proof.Machine
end

