-- ==== Sys2Proof/Machine/Ops.lean ====
section
/-! DEFINITION. The named operations: reading and writing buffer cells (R30, R31, R40), the store at the cursor, the
events (R8), the start and the re-arm that surround every transition (R52, R95), resynchronization (R144, the
counterpart of taking an exception), the clear, reset (R161) and boot (R162). -/

namespace Sys2Proof.Machine

open Sys2Proof

/-- What a step answers. -/
abbrev Result := Host.Outcome State Fault Refusal

/-- Go on with `f` if `r` is a next state; a fault or a refusal stays. -/
def andThen (r : Result) (f : State → Result) : Result :=
  match r with
  | .next s => f s
  | .fault e => .fault e
  | .refused e => .refused e

/-- The byte written to cell `a` since reset, if any. -/
def Memory.cell? (m : Memory) (a : Nat) : Option Byte :=
  match m with
  | [] => none
  | (k, v) :: rest => if k = a then some v else Memory.cell? rest a

/-- Write byte `b` to cell `a`, keeping the indices strictly rising. -/
def Memory.put (m : Memory) (a : Nat) (b : Byte) : Memory :=
  match m with
  | [] => [(a, b)]
  | (k, v) :: rest =>
    if a < k then (a, b) :: (k, v) :: rest
    else if a = k then (a, b) :: rest
    else (k, v) :: Memory.put rest a b

/-- The indices rise strictly from `lo` on and stay below 32. -/
def Memory.wfFrom (lo : Nat) (m : Memory) : Bool :=
  match m with
  | [] => true
  | (k, _) :: rest => decide (lo ≤ k) && decide (k < 32) && Memory.wfFrom (k + 1) rest

/-- The canonical form: every index is a cell of the buffer (R30) and listed once, in rising order. -/
def Memory.wf (m : Memory) : Bool := Memory.wfFrom 0 m

/-- Read of one buffer cell, `MemRead(i, 1)` (R8, R36): the byte last written, or the free value `BUF_INIT` where
nothing has written since reset (R19, R40, R176). -/
def State.cell (s : State) (i : Fin 32) : Byte :=
  match Memory.cell? s.buf i.val with
  | some b => b
  | none => Config.bufInit s.epoch i.val

/-- `L`, the view of `buf[3]` (R14). -/
def State.len (s : State) : Byte := s.cell lengthIndex

/-- `MemRead(i, 2)`, used by the interpreter only (R8, R33). -/
def State.half (s : State) (i j : Fin 32) : Half := be16 (s.cell i) (s.cell j)

/-- The values of `buf[0..31]` (R93). -/
def State.snapshot (s : State) : List Byte := (List.finRange 32).map s.cell

/-- `MemWrite(i, 1, b)` (R8): that cell changes and no other (R36). -/
def State.write (s : State) (i : Fin 32) (b : Byte) : State := { s with buf := Memory.put s.buf i.val b }

/-- `emit E` (R8). -/
def State.emit (s : State) (e : Event) : State := { s with trace := s.trace ++ [e] }

/-- `state <- S` (R8). -/
def State.goto (s : State) (st : ParserState) : State := { s with state := st }

/-- `cursor <- v` (R8). -/
def State.setCursor (s : State) (c : Fin 33) : State := { s with cursor := c }

/-- Store byte `b` in the cell of a given index and say so: `buf[i] <- b; emit Stored(i, b)`. -/
def State.storeAt (s : State) (i : Fin 32) (b : Byte) : State := (s.write i b).emit (.stored i b)

/-- "store" (R31): write `b` at the cursor, then advance the cursor. At `cursor = 32` there is no cell to write: a
fault, never a wrap (R34, log 8). -/
def store (b : Byte) (s : State) : Result :=
  if h : s.cursor.val < 32 then
    .next ((s.storeAt ⟨s.cursor.val, h⟩ b).setCursor ⟨s.cursor.val + 1, by omega⟩)
  else .fault (.storeOutOfRange s.cursor.val)

/-- The clear of the buffer and the return to the header hunt: `state <- AwaitingHeader1; cursor <- 0`, the cells keep
their values (R15, R40, R92). -/
def State.clear (s : State) : State := (s.goto .awaitingHeader1).setCursor 0

/-- `raise Resync(cause)` (R144), the block's counterpart of taking an exception: nothing is saved, the buffer is
cleared and the header hunt starts again. There is no return from it (R154). -/
def State.resync (s : State) (cause : ResyncCause) : State := (s.emit (.resync cause)).clear

/-- `Rearm()` (R95): the last action of every step. -/
def State.rearm (s : State) : State := { s.emit .rearm with armed := true }

/-- `armed <- 0`, the first action of every step (R17, R52). -/
def State.disarm (s : State) : State := { s with armed := false }

/-- One step around a transition `t` (R52): defined for `armed = 1` only (R170, log 7); the armed reception has
completed, the transition runs, the Transport is armed again. -/
def receive (t : State → Result) (s : State) : Result :=
  if s.armed then andThen (t s.disarm) (fun s' => .next s'.rearm) else .refused .byteNotArmed

/-- `rst` asserted (R160, R161): every item of the spec takes its reset value, whatever it was; nothing is emitted. The
cells read as fresh `BUF_INIT` values (log 4); the model's observations and the pending inputs stay (log 3). -/
def State.applyReset (s : State) : State :=
  { s with
    state := .awaitingHeader1
    cursor := 0
    buf := []
    armed := false
    sensor := SensorState.initial
    epoch := s.epoch + 1 }

/-- `rst` released (R162, D8): the block arms the Transport for the first byte. No event is emitted (95_test_vectors.md
counts one `Rearm` a byte; log 6). -/
def State.boot (s : State) : State := { s with armed := true }

/-- The input `x` becomes the next one the machine takes. -/
def State.offer (s : State) (x : Input) : State := { s with input := x :: s.input }

end Sys2Proof.Machine
end

