-- ==== Sys2Proof/Machine/Consumer.lean ====
section
/-! DEFINITION. The consumer's operations in the normal context (R120 to R122): each is one atomic operation between
parser steps (D22) and touches neither `state`, `cursor` nor `buf` (R149). -/

namespace Sys2Proof.Machine

open Sys2Proof

/-- What an accessor returns (R120): the latest stored value. -/
def SensorState.get (r : SensorState) (f : Accessor) : Returned :=
  match f with
  | .distance    => .half .distance r.distance
  | .port        => .byte .port r.portMode
  | .firmware    => .byte .firmware r.firmware
  | .calibration => .byte .calibration r.calibration
  | .errorCode   => .byte .errorCode r.errorCode
  | .productType => .byte .productType r.productType
  | .offset 0    => .byte (.offset 0) r.offset0
  | .offset 1    => .byte (.offset 1) r.offset1
  | .offset 2    => .byte (.offset 2) r.offset2
  | .offset 3    => .byte (.offset 3) r.offset3
  | .crosstalk   => .half .crosstalk r.crosstalk

/-- An accessor call (R120): it returns the value and changes nothing. -/
def State.access (s : State) (f : Accessor) : State := { s with returned := s.returned ++ [s.sensor.get f] }

/-- `takeUnreadFlag()` (R121): `r <- unread; unread <- 0; return r`. -/
def State.takeUnreadFlag (s : State) : State :=
  { s with
    sensor := { s.sensor with unread := false }
    returned := s.returned ++ [.unread s.sensor.unread] }

end Sys2Proof.Machine
end

