-- ==== Sys2Proof/Machine/CommandLength.lean ====
section
/-! DEFINITION. Transitions T5 to T8, command byte and length check (41_command_length.md, R80 to R83). -/

namespace Sys2Proof.Machine

open Sys2Proof

/-- T5 `CMD_STORE` (R80): any byte is stored, none is compared with the command codes. -/
def execCmdStore (b : Byte) (s : State) : Result :=
  receive (fun s => andThen (store b s) (fun s => .next (s.goto .awaitingLength))) s

/-- T6 `LEN_PAYLOAD` (R81): the length is stored, to `AwaitingPayload`. -/
def execLenPayload (b : Byte) (s : State) : Result :=
  receive (fun s => andThen (store b s) (fun s => .next (s.goto .awaitingPayload))) s

/-- T7 `LEN_EMPTY` (R82): the length 0 is stored, the payload state is skipped. -/
def execLenEmpty (s : State) : Result :=
  receive (fun s => andThen (store 0 s) (fun s => .next (s.goto .awaitingEnd))) s

/-- T8 `LEN_REJECT` (R83, R143): the length is stored before it is rejected (D10), then resynchronization. -/
def execLenReject (b : Byte) (s : State) : Result :=
  receive (fun s => andThen (store b s) (fun s => .next (s.resync .oversizeLength))) s

end Sys2Proof.Machine
end

