-- ==== Sys2Proof/WellFormed.lean ====
section
/-! DEFINITION. Which instructions are well formed: the conditions on the byte that the rows of the opcode table state
and a bit mask cannot (R51, R61, R117). -/

namespace Sys2Proof

open Machine

/-- The conditions of R51 and R117 on an instruction's own operand. `PAY_MORE` and `PAY_LAST` take any byte: their
condition is on `cursor` and `L`, not on the instruction (see `Instr.fits` in Decode.lean). -/
def Instr.wellFormed (i : Instr) : Bool :=
  match i with
  | .h1Match => true
  | .h1Ignore b => !header1OK b
  | .h2Match => true
  | .h2Resync b => !header2OK b
  | .cmdStore _ => true
  | .lenPayload b => b != 0 && lengthOK b
  | .lenEmpty => true
  | .lenReject b => !lengthOK b
  | .payMore _ => true
  | .payLast _ => true
  | .endDispatch _ => true
  | .measure => true
  | .crosstalkCorrection => true
  | .offsetCorrection => true
  | .reset => true
  | .getFactoryDefaultSettings => true
  | .getProductInfo => true
  | .otherCommand c => (commandOfCode c).isNone
  | .req _ => true

end Sys2Proof
end

