-- ==== Sys2Proof/Decode.lean ====
section
/-! DEFINITION. The decoder: the selection of a transition (R51, R52), the command row of a command byte (R54, R112),
the request frame (R125), and the three words of spec/opcode_table.json (R61); then the encoder, from the same table. -/

namespace Sys2Proof

open Machine

/-- Why bytes are no instruction. -/
inductive DecodeError where
  /-- A `STEP` word whose upper bits are no state code: 6, 7 (R11, U9), or beyond three bits. -/
  | noSuchState (code : Byte)
  /-- Five bytes that are not `[HEADER1, HEADER2, c, 0x00, END_MARKER]` (R125). -/
  | notARequest
  /-- A request frame whose command byte is none of the six commands (R124, D26). -/
  | noSuchCommand (c : Byte)
  /-- No row of the table has words of this many bytes (R61). -/
  | noSuchFormat (bytes : Nat)
  deriving DecidableEq, Repr

/-- The one transition a byte selects, exactly as `Step(b)` does (R52): total on every state, byte, cursor and `L`.
In `AwaitingPayload` a cursor beyond `3 + L`, which R13 rules out, takes T9 as R52's `else` does (log 9). -/
def selectTransition (st : ParserState) (b : Byte) (cursor : Nat) (l : Byte) : Instr :=
  match st with
  | .awaitingHeader1 => if header1OK b then .h1Match else .h1Ignore b
  | .awaitingHeader2 => if header2OK b then .h2Match else .h2Resync b
  | .awaitingCommand => .cmdStore b
  | .awaitingLength  => if b = 0 then .lenEmpty else if lengthOK b then .lenPayload b else .lenReject b
  | .awaitingPayload => if cursor + 1 = Config.hdrLen + l.toNat then .payLast b else .payMore b
  | .awaitingEnd     => .endDispatch b

/-- The `FRAME_CMD` row of a command byte (R54, R112, R117): `OTHER_COMMAND` has the lowest priority. -/
def decodeCommand (c : Byte) : Instr :=
  match commandOfCode c with
  | some .measure                   => .measure
  | some .crosstalkCorrection       => .crosstalkCorrection
  | some .offsetCorrection          => .offsetCorrection
  | some .reset                     => .reset
  | some .getFactoryDefaultSettings => .getFactoryDefaultSettings
  | some .getProductInfo            => .getProductInfo
  | none                            => .otherCommand c

/-- The `REQ_FRAME` row: `[HEADER1, HEADER2, c, 0x00, END_MARKER]` with `c` one of the six commands (R125, D26). -/
def decodeRequest (b0 b1 c b3 b4 : Byte) : Except DecodeError Instr :=
  if b0 = Config.header1 ∧ b1 = Config.header2 ∧ b3 = 0 ∧ b4 = Config.endMarker then
    match commandOfCode c with
    | some k => .ok (.req k)
    | none => .error (.noSuchCommand c)
  else .error .notARequest

/-- The decoder, total on any bytes. One byte is a `FRAME_CMD` word, two bytes a `STEP` word (the 11-bit word
`state_code ++ b` of R61, most significant byte first), five bytes a `REQ_FRAME` word. `cursor` and `L` are what R51's
conditions on `AwaitingPayload` read; no other word looks at them. -/
def decode (cursor : Nat) (l : Byte) (bytes : List Byte) : Except DecodeError Instr :=
  match bytes with
  | [c] => .ok (decodeCommand c)
  | [hi, lo] =>
    match stateOfCode hi.toNat with
    | some st => .ok (selectTransition st lo cursor l)
    | none => .error (.noSuchState hi)
  | [b0, b1, c, b3, b4] => decodeRequest b0 b1 c b3 b4
  | other => .error (.noSuchFormat other.length)

/-- The 11-bit word of a `STEP` row (R61): `w = state_code[2:0] ++ b[7:0]`. -/
def stepWord (st : ParserState) (b : Byte) : BitVec 11 := stateCode st ++ b

/-- The two bytes of an 11-bit word, most significant first (log 14). -/
def stepWordBytes (w : BitVec 11) : List Byte := [BitVec.setWidth 8 (w.extractLsb' 8 3), w.extractLsb' 0 8]

/-- The parser state and the byte a `STEP` row's word holds (R51, R61). -/
def encodeStep (st : ParserState) (b : Byte) : List Byte := stepWordBytes (stepWord st b)

/-- The request frame of a command (R125): the encoder's five bytes. -/
def requestFrame (c : Command) : List Byte :=
  [Config.header1, Config.header2, commandCode c, 0x00, Config.endMarker]

/-- The encoder: the word of an instruction, as the bytes the decoder reads, from the rows of the table (R61). -/
def encode (i : Instr) : List Byte :=
  match i with
  | .h1Match => encodeStep .awaitingHeader1 Config.header1
  | .h1Ignore b => encodeStep .awaitingHeader1 b
  | .h2Match => encodeStep .awaitingHeader2 Config.header2
  | .h2Resync b => encodeStep .awaitingHeader2 b
  | .cmdStore b => encodeStep .awaitingCommand b
  | .lenPayload b => encodeStep .awaitingLength b
  | .lenEmpty => encodeStep .awaitingLength 0
  | .lenReject b => encodeStep .awaitingLength b
  | .payMore b => encodeStep .awaitingPayload b
  | .payLast b => encodeStep .awaitingPayload b
  | .endDispatch b => encodeStep .awaitingEnd b
  | .measure => [commandCode .measure]
  | .crosstalkCorrection => [commandCode .crosstalkCorrection]
  | .offsetCorrection => [commandCode .offsetCorrection]
  | .reset => [commandCode .reset]
  | .getFactoryDefaultSettings => [commandCode .getFactoryDefaultSettings]
  | .getProductInfo => [commandCode .getProductInfo]
  | .otherCommand c => [c]
  | .req c => requestFrame c

/-- The row's condition on `cursor` and `L` (R51): only `PAY_MORE` and `PAY_LAST`, which share their words, have one. -/
def Instr.fits (i : Instr) (cursor : Nat) (l : Byte) : Bool :=
  match i with
  | .payMore _ => decide (cursor + 1 ≠ Config.hdrLen + l.toNat)
  | .payLast _ => decide (cursor + 1 = Config.hdrLen + l.toNat)
  | _ => true

/-- The bytes of a table word of `nbits` bits, most significant byte first: the order in which the 40-bit request is
sent (the `REQ` row's byte_order), taken for the 11-bit word too (log 14). -/
def wordBytes (nbits w : Nat) : List Byte :=
  (List.range ((nbits + 7) / 8)).reverse.map (fun k => BitVec.ofNat 8 (w / 2 ^ (8 * k)))

/-- `cursor` and `L` while a bare table word is decoded: the first payload byte of a frame with two. A word of the table
says neither, so an `AwaitingPayload` word is read as `PAY_MORE` (log 14). -/
def tableCursor : Nat := 4

/-- See `tableCursor`. -/
def tableLength : Byte := 2

/-- The instruction the decoder reads from a word numbered as spec/opcode_table.json numbers it. -/
def decodeTableWord (nbits w : Nat) : Option Instr :=
  if w < 2 ^ nbits then
    match decode tableCursor tableLength (wordBytes nbits w) with
    | .ok i => some i
    | .error _ => none
  else none

end Sys2Proof
end

