-- ==== Sys2Proof/Machine/Encoder.lean ====
section
/-! DEFINITION. The companion CommandEncoder (R124 to R126). -/

namespace Sys2Proof.Machine

open Sys2Proof

/-- `REQ` (R125, R126): the encoder's five bytes, handed to the Transport. The send path shares no state with the
parser; the Transport's status and maximum wait are outside the spec (R126, log 11). -/
def execReq (c : Command) (s : State) : Result := .next { s with sent := s.sent ++ [requestFrame c] }

end Sys2Proof.Machine
end

