-- ==== Sys2Proof/Machine/HeaderHunt.lean ====
section
/-! DEFINITION. Transitions T1 to T4, the header hunt (40_header_hunt.md, R70 to R73). -/

namespace Sys2Proof.Machine

open Sys2Proof

/-- T1 `H1_MATCH` (R70): `HEADER1` into cell 0, cursor 1, to `AwaitingHeader2`. -/
def execH1Match (s : State) : Result :=
  receive (fun s => .next (((s.storeAt 0 Config.header1).setCursor 1).goto .awaitingHeader2)) s

/-- T2 `H1_IGNORE` (R71): the byte is lost, nothing else. -/
def execH1Ignore (b : Byte) (s : State) : Result :=
  receive (fun s => .next (s.emit (.ignored b))) s

/-- T3 `H2_MATCH` (R72): `HEADER2` into cell 1, cursor 2, to `AwaitingCommand`. -/
def execH2Match (s : State) : Result :=
  receive (fun s => .next (((s.storeAt 1 Config.header2).setCursor 2).goto .awaitingCommand)) s

/-- T4 `H2_RESYNC` (R73, R142): the byte is dropped, not stored and not examined again (D9). -/
def execH2Resync (_b : Byte) (s : State) : Result :=
  receive (fun s => .next (s.resync .badHeader2)) s

end Sys2Proof.Machine
end

