-- ==== Sys2Proof/Machine/Interpreter.lean ====
section
/-! DEFINITION. The companion PacketInterpreter (R112 to R119): one meaning for each command row, on the buffer as it
stands, and `interpret`, which runs the row of the stored command byte. -/

namespace Sys2Proof.Machine

open Sys2Proof

/-- The interpreter's failure (R117): `SensorState` untouched, the Boolean result is the only trace (R94, R155). -/
def State.interpretFailed (s : State) : State := s.emit (.interpResult false)

/-- The interpreter's success (R112, R118): the command's fields are written, then `unread <- 1`. -/
def State.interpretOk (s : State) (fields : SensorState) : State :=
  { s with sensor := { fields with unread := true } }.emit (.interpResult true)

/-- The length check of R119: with `INTERP_LEN_CHECK` a payload shorter than the command's shape fails. -/
def State.tooShort (s : State) (c : Command) : Bool := decide (s.len.toNat < minLen c) && Config.interpLenCheck

/-- `Measure` (R113): distance at payload offset 0, error code at offset 2. -/
def execMeasure (s : State) : Result :=
  if s.tooShort .measure then .next s.interpretFailed
  else .next (s.interpretOk
    { s.sensor with
      distance := s.half (payloadIndex 0) (payloadIndex 1)
      errorCode := s.cell (payloadIndex 2) })

/-- `CrosstalkCorrection` (R117): no response shape is documented; failure. -/
def execCrosstalkCorrection (s : State) : Result := .next s.interpretFailed

/-- `OffsetCorrection` (R117): no response shape is documented; failure. -/
def execOffsetCorrection (s : State) : Result := .next s.interpretFailed

/-- `Reset` (R114, C5): no reading field is written, and the success sets `unread`. -/
def execResetResponse (s : State) : Result :=
  if s.tooShort .reset then .next s.interpretFailed else .next (s.interpretOk s.sensor)

/-- `GetFactoryDefaultSettings` (R115, D19): four offset bytes, crosstalk, calibration stage. -/
def execGetFactoryDefaultSettings (s : State) : Result :=
  if s.tooShort .getFactoryDefaultSettings then .next s.interpretFailed
  else .next (s.interpretOk
    { s.sensor with
      offset0 := s.cell (payloadIndex 0)
      offset1 := s.cell (payloadIndex 1)
      offset2 := s.cell (payloadIndex 2)
      offset3 := s.cell (payloadIndex 3)
      crosstalk := s.half (payloadIndex 4) (payloadIndex 5)
      calibration := s.cell (payloadIndex 6) })

/-- `GetProductInfo` (R116): product type, port mode, firmware version. -/
def execGetProductInfo (s : State) : Result :=
  if s.tooShort .getProductInfo then .next s.interpretFailed
  else .next (s.interpretOk
    { s.sensor with
      productType := s.cell (payloadIndex 0)
      portMode := s.cell (payloadIndex 1)
      firmware := s.cell (payloadIndex 2) })

/-- Any other command byte (R117): failure, `SensorState` untouched. -/
def execOtherCommand (_c : Byte) (s : State) : Result := .next s.interpretFailed

/-- `interpret(buffer, size)` (R112): the row of the command byte `buffer[2]`. It examines neither the headers, nor the
trailer, nor `size`. -/
def interpret (s : State) : Result :=
  match commandOfCode (s.cell commandIndex) with
  | some .measure                   => execMeasure s
  | some .crosstalkCorrection       => execCrosstalkCorrection s
  | some .offsetCorrection          => execOffsetCorrection s
  | some .reset                     => execResetResponse s
  | some .getFactoryDefaultSettings => execGetFactoryDefaultSettings s
  | some .getProductInfo            => execGetProductInfo s
  | none                            => execOtherCommand (s.cell commandIndex) s

end Sys2Proof.Machine
end

