-- ==== Sys2Proof/Machine/PayloadEnd.lean ====
section
/-! DEFINITION. Transitions T9 to T11, payload intake, trailer and dispatch (42_payload_end.md, R90 to R94). -/

namespace Sys2Proof.Machine

open Sys2Proof

/-- T9 `PAY_MORE` (R90): stored, the state stays. -/
def execPayMore (b : Byte) (s : State) : Result :=
  receive (fun s => store b s) s

/-- T10 `PAY_LAST` (R91): the last payload byte is stored, to `AwaitingEnd`. -/
def execPayLast (b : Byte) (s : State) : Result :=
  receive (fun s => andThen (store b s) (fun s => .next (s.goto .awaitingEnd))) s

/-- `Dispatch(size)` (R93): the event with the whole buffer as it stands and `size` the cursor, then the interpreter. -/
def dispatch (endOk : Bool) (s : State) : Result :=
  interpret (s.emit (.dispatch s.cursor.val s.snapshot endOk))

/-- T11 `END_DISPATCH` (R92): the trailer is stored, the frame is dispatched whatever the trailer is (C1), the
interpreter's result is ignored (R94), then the buffer is cleared. -/
def execEndDispatch (b : Byte) (s : State) : Result :=
  receive (fun s => andThen (store b s) (fun s => andThen (dispatch (endOK b) s) (fun s => .next s.clear))) s

end Sys2Proof.Machine
end

