-- ==== Sys2Proof/Machine/Dispatch.lean ====
section
/-! DEFINITION. exec: one arm for each constructor of Instr, each a direct call of that instruction's meaning. -/

namespace Sys2Proof.Machine

open Sys2Proof

def exec (i : Instr) (s : State) : Host.Outcome State Fault Refusal :=
  match i with
  -- T1 to T4, the header hunt
  | .h1Match => Sys2Proof.Machine.execH1Match s
  | .h1Ignore b => Sys2Proof.Machine.execH1Ignore b s
  | .h2Match => Sys2Proof.Machine.execH2Match s
  | .h2Resync b => Sys2Proof.Machine.execH2Resync b s
  -- T5 to T8, command byte and length check
  | .cmdStore b => Sys2Proof.Machine.execCmdStore b s
  | .lenPayload b => Sys2Proof.Machine.execLenPayload b s
  | .lenEmpty => Sys2Proof.Machine.execLenEmpty s
  | .lenReject b => Sys2Proof.Machine.execLenReject b s
  -- T9 to T11, payload intake, trailer and dispatch
  | .payMore b => Sys2Proof.Machine.execPayMore b s
  | .payLast b => Sys2Proof.Machine.execPayLast b s
  | .endDispatch b => Sys2Proof.Machine.execEndDispatch b s
  -- the interpreter's command rows
  | .measure => Sys2Proof.Machine.execMeasure s
  | .crosstalkCorrection => Sys2Proof.Machine.execCrosstalkCorrection s
  | .offsetCorrection => Sys2Proof.Machine.execOffsetCorrection s
  | .reset => Sys2Proof.Machine.execResetResponse s
  | .getFactoryDefaultSettings => Sys2Proof.Machine.execGetFactoryDefaultSettings s
  | .getProductInfo => Sys2Proof.Machine.execGetProductInfo s
  | .otherCommand c => Sys2Proof.Machine.execOtherCommand c s
  -- the encoder
  | .req c => Sys2Proof.Machine.execReq c s

end Sys2Proof.Machine
end

