-- ==== Sys2Proof/Machine/Fetch.lean ====
section
/-! DEFINITION. What a step takes as its next instruction, and how a word of the opcode table is put there. -/

namespace Sys2Proof.Machine

open Sys2Proof

/-- The transition that byte `b` selects in state `s` (R51, R52): it reads `state`, `cursor` and `L = buf[3]`. -/
def State.fetched (s : State) (b : Byte) : Instr := selectTransition s.state b s.cursor.val s.len

/-- Write the bytes of a frame from cell `i` on; there is no cell 32. -/
def State.placeFrom (s : State) (i : Nat) (bytes : List Byte) : State :=
  match bytes with
  | [] => s
  | b :: rest => if h : i < 32 then State.placeFrom (s.write ⟨i, h⟩ b) (i + 1) rest else s

/-- The machine in parser state `st` with the given bytes of a frame received so far (R32): they stand in the buffer
from cell 0, the cursor is their count, and the Transport is armed (R17). -/
def State.midFrame (s : State) (st : ParserState) (bytes : List Byte) : State :=
  { s.placeFrom 0 bytes with state := st, cursor := Fin.ofNat 33 bytes.length, armed := true }

/-- The shortest frame beginning that brings the parser into a state (R13), for running one `STEP` word (log 10). In
`AwaitingPayload` the length is 2, so that the next byte is not the last (`tableCursor`, `tableLength`). -/
def frameBeginning (st : ParserState) : List Byte :=
  match st with
  | .awaitingHeader1 => []
  | .awaitingHeader2 => [Config.header1]
  | .awaitingCommand => [Config.header1, Config.header2]
  | .awaitingLength  => [Config.header1, Config.header2, 0x00]
  | .awaitingPayload => [Config.header1, Config.header2, 0x00, tableLength]
  | .awaitingEnd     => [Config.header1, Config.header2, 0x00, 0x00]

/-- A frame with command byte `c`, received up to its trailer, with the shortest payload on which the command's row runs
under both settings of `INTERP_LEN_CHECK` (R119), of zeros. -/
def commandBeginning (c : Byte) : List Byte :=
  let n := match commandOfCode c with
    | some k => minLen k
    | none => 0
  [Config.header1, Config.header2, c, BitVec.ofNat 8 n] ++ List.replicate n 0x00

/-- A table word put where the next step takes its instruction. A `STEP` word is a parser state and a pending byte; a
`FRAME_CMD` word is the command byte of a frame whose trailer is the pending byte, since the interpreter runs only inside
that step (R93, R149); a request word is a pending `send`. Bytes that are no word of the table place nothing. -/
def State.placeWord (s : State) (bytes : List Byte) : State :=
  match bytes with
  | [c] => (s.midFrame .awaitingEnd (commandBeginning c)).offer (.byte Config.endMarker)
  | [hi, lo] =>
    match stateOfCode hi.toNat with
    | some st => (s.midFrame st (frameBeginning st)).offer (.byte lo)
    | none => s
  | [_, _, c, _, _] =>
    match commandOfCode c with
    | some k => s.offer (.send k)
    | none => s
  | _ => s

end Sys2Proof.Machine
end

