-- ==== Sys2Proof/Machine/Step.lean ====
section
/-! DEFINITION. One step of the machine: the next pending input moves. A byte runs the transition it selects (R5, R52); a
reset, a boot, a consumer's or a sender's operation is one atomic move between parser steps (R38, R122, R166). -/

namespace Sys2Proof.Machine

open Sys2Proof

/-- The machine takes its next pending input. With none pending nothing changes: the block waits, without a timeout
(R150, R174, R177; log 1). -/
def step (s : State) : Host.Outcome State Fault Refusal :=
  match s.input with
  | [] => .next s
  | .byte b :: rest => exec (s.fetched b) { s with input := rest }
  | .resetAssert :: rest => .next { s with input := rest }.applyReset
  | .resetRelease :: rest => .next { s with input := rest }.boot
  | .send c :: rest => exec (.req c) { s with input := rest }
  | .read f :: rest => .next ({ s with input := rest }.access f)
  | .takeUnread :: rest => .next { s with input := rest }.takeUnreadFlag

/-- `s` with a word of spec/opcode_table.json, numbered as the table numbers it, as its next instruction (log 10). -/
def State.withFetchWord (s : State) (nbits w : Nat) : State := s.placeWord (wordBytes nbits w)

end Sys2Proof.Machine
end

