-- ==== Sys2Proof/Machine/Ports.lean ====
section
/-! DEFINITION. The output ports of R20: functions of the state after a step and of the events the step emitted (R16).
The input ports `rst`, `rx_valid` and `rx_data` are the inputs of State.lean; `interp_ok` is the event `InterpResult`. -/

namespace Sys2Proof.Machine

open Sys2Proof

/-- The code of a cause on port `resync_cause` (R141, D18). -/
def resyncCode (c : ResyncCause) : BitVec 1 :=
  match c with
  | .badHeader2 => 0
  | .oversizeLength => 1

/-- The output ports (R20). A strobe and the ports it qualifies are one Option: `disp_valid` with `disp_size` and
`disp_end_ok`, `resync_valid` with `resync_cause`; the spec gives the latter no value without the strobe (log 15). -/
structure OutputPorts where
  rxArm   : Bool
  disp    : Option (BitVec 6 × Bool)
  resync  : Option (BitVec 1)
  stateO  : BitVec 3
  cursorO : BitVec 6
  deriving DecidableEq, Repr

/-- The dispatch strobe of a step's events, with `disp_size` and `disp_end_ok`. -/
def dispPort (evs : List Event) : Option (BitVec 6 × Bool) :=
  match evs with
  | [] => none
  | .dispatch n _ e :: _ => some (BitVec.ofNat 6 n, e)
  | _ :: rest => dispPort rest

/-- The resync strobe of a step's events, with `resync_cause`. -/
def resyncPort (evs : List Event) : Option (BitVec 1) :=
  match evs with
  | [] => none
  | .resync c :: _ => some (resyncCode c)
  | _ :: rest => resyncPort rest

/-- The output ports after a step that led to `s` and emitted `evs` (R16, R20). -/
def outputPorts (s : State) (evs : List Event) : OutputPorts where
  rxArm   := s.armed
  disp    := dispPort evs
  resync  := resyncPort evs
  stateO  := stateCode s.state
  cursorO := BitVec.ofNat 6 s.cursor.val

/-- The interpreter's read port: `buf_rdata` for `buf_raddr` (R20, R42). R20 calls it meaningful only during a dispatch;
that it shows the cell's value in every other state too is the model's choice (DESIGN CHOICE, log 15), on which no meaning
and no statement rests: the interpreter reads the cells themselves, inside T11. -/
def bufReadData (s : State) (raddr : BitVec 5) : Byte := s.cell raddr.toFin

end Sys2Proof.Machine
end

