-- ==== Sys2Proof/Safety.lean ====
section
/-! DEFINITION. The terms in which the claims speak: the invariant of R13, runs, the events of a step, the rows of R51 as
conditions, dispatchable frames (R105), and which parts of the state two states share. -/

namespace Sys2Proof.Machine

open Sys2Proof

/-- `buf[0] = HEADER1` and `buf[1] = HEADER2` (R13, R100). -/
def State.HeadersStored (s : State) : Prop := s.cell 0 = Config.header1 ∧ s.cell 1 = Config.header2

/-- The table of R13: what ties `cursor` and `L = buf[3]` to `state` between steps. -/
def State.Tied (s : State) : Prop :=
  match s.state with
  | .awaitingHeader1 => s.cursor.val = 0
  | .awaitingHeader2 => s.cursor.val = 1 ∧ s.cell 0 = Config.header1
  | .awaitingCommand => s.cursor.val = 2 ∧ s.HeadersStored
  | .awaitingLength  => s.cursor.val = 3 ∧ s.HeadersStored
  | .awaitingPayload => 4 ≤ s.cursor.val ∧ s.cursor.val < 4 + s.len.toNat ∧ s.len.toNat ≤ 27 ∧ s.HeadersStored
  | .awaitingEnd     => s.cursor.val = 4 + s.len.toNat ∧ s.len.toNat ≤ 27 ∧ s.HeadersStored

/-- The invariant between steps: the buffer keeps its canonical form, the table of R13 holds, every cell of the frame in
progress has been written since reset (R32, R40), and the block is disarmed only while it has not left reset (R17). -/
structure State.Inv (s : State) : Prop where
  canonical : Memory.wf s.buf = true
  tied : s.Tied
  written : ∀ i : Fin 32, i.val < s.cursor.val → (Memory.cell? s.buf i.val).isSome = true
  armedAfterBoot : s.armed = false → s.state = .awaitingHeader1

/-- `k` steps, stopping at the first fault or refusal. -/
def runSteps (k : Nat) (s : State) : Result :=
  match k with
  | 0 => .next s
  | k + 1 => andThen (step s) (runSteps k)

/-- The bytes `bs` become the next inputs, in arrival order. -/
def State.feed (s : State) (bs : List Byte) : State := { s with input := bs.map Input.byte ++ s.input }

/-- The instruction the next step runs: the transition a pending byte selects, or the request of a pending `send`. -/
def nextInstr (s : State) : Option Instr :=
  match s.input with
  | .byte b :: _ => some (s.fetched b)
  | .send c :: _ => some (.req c)
  | _ => none

/-- The instructions that the first `k` steps run. -/
def executed (k : Nat) (s : State) : List Instr :=
  match k with
  | 0 => []
  | k + 1 =>
    match step s with
    | .next t => (nextInstr s).toList ++ executed k t
    | .fault _ => []
    | .refused _ => []

/-- `evs` are the events that led from `s` to `t`. -/
def EventsOf (s t : State) (evs : List Event) : Prop := t.trace = s.trace ++ evs

/-- A `Dispatch` event. -/
def Event.isDispatch (e : Event) : Bool :=
  match e with
  | .dispatch _ _ _ => true
  | _ => false

/-- A `Resync` event. -/
def Event.isResync (e : Event) : Bool :=
  match e with
  | .resync _ => true
  | _ => false

/-- No event of the list is a `Dispatch`. -/
def NoDispatch (evs : List Event) : Prop := ∀ e ∈ evs, e.isDispatch = false

/-- No event of the list is a `Resync`. -/
def NoResync (evs : List Event) : Prop := ∀ e ∈ evs, e.isResync = false

/-- The condition of the table row of R51 (with the byte of the instruction the received one), written out with the
values of the row. The rows of the companion blocks are no transitions. -/
def RowApplies (i : Instr) (s : State) (b : Byte) : Prop :=
  match i with
  | .h1Match => s.state = .awaitingHeader1 ∧ b = 0x55
  | .h1Ignore c => s.state = .awaitingHeader1 ∧ c = b ∧ b ≠ 0x55
  | .h2Match => s.state = .awaitingHeader2 ∧ b = 0xAA
  | .h2Resync c => s.state = .awaitingHeader2 ∧ c = b ∧ b ≠ 0xAA
  | .cmdStore c => s.state = .awaitingCommand ∧ c = b
  | .lenPayload c => s.state = .awaitingLength ∧ c = b ∧ 1 ≤ b.toNat ∧ b.toNat ≤ 27
  | .lenEmpty => s.state = .awaitingLength ∧ b = 0
  | .lenReject c => s.state = .awaitingLength ∧ c = b ∧ 28 ≤ b.toNat
  | .payMore c => s.state = .awaitingPayload ∧ c = b ∧ s.cursor.val + 1 < 4 + s.len.toNat
  | .payLast c => s.state = .awaitingPayload ∧ c = b ∧ s.cursor.val + 1 = 4 + s.len.toNat
  | .endDispatch c => s.state = .awaitingEnd ∧ c = b
  | _ => False

/-- A dispatchable frame (R105): `[HEADER1, HEADER2, c, n] ++ p ++ [e]` with `n` the number of bytes of `p`. With
`e = END_MARKER` it is the well-formed frame `FRAME(c, p)` (R60). -/
def dispatchable (c : Byte) (p : List Byte) (e : Byte) : List Byte :=
  [Config.header1, Config.header2, c, BitVec.ofNat 8 p.length] ++ p ++ [e]

/-- The transitions of the payload (R106): T9 for every byte but the last, T10 for the last. -/
def payloadTransitions (p : List Byte) : List Instr :=
  match p with
  | [] => []
  | [b] => [.payLast b]
  | b :: q => .payMore b :: payloadTransitions q

/-- The transitions of a dispatchable frame (R106): T1, T3, T5, then T7, or T6 and the payload's, then T11. -/
def frameTransitions (c : Byte) (p : List Byte) (e : Byte) : List Instr :=
  [.h1Match, .h2Match, .cmdStore c] ++
    (if p.length = 0 then [.lenEmpty] else .lenPayload (BitVec.ofNat 8 p.length) :: payloadTransitions p) ++
    [.endDispatch e]

/-- The parser is armed and hunting for a first header byte: where a frame must find it to be decoded (R106). -/
def State.Hunting (s : State) : Prop := s.Inv ∧ s.armed = true ∧ s.state = .awaitingHeader1

/-- What no parser transition but T11 touches: the sensor record, the pending inputs, the reset count, the consumer's
results and the sent frames. -/
structure SameRest (s t : State) : Prop where
  sensor : t.sensor = s.sensor
  epoch : t.epoch = s.epoch
  input : t.input = s.input
  returned : t.returned = s.returned
  sent : t.sent = s.sent

/-- Every buffer cell reads as before but cell `i`, which reads as `b`. -/
def StoresOnly (s t : State) (i : Fin 32) (b : Byte) : Prop :=
  ∀ a : Fin 32, t.cell a = if a = i then b else s.cell a

/-- Every buffer cell reads as before. -/
def StoresNothing (s t : State) : Prop := ∀ a : Fin 32, t.cell a = s.cell a

/-- Two states in which the parser is at the same point of the same frame: they may differ in stale cells, in
`BUF_INIT`, in the companions and in every observation. -/
structure SameParse (s t : State) : Prop where
  state : s.state = t.state
  cursor : s.cursor = t.cursor
  armed : s.armed = t.armed
  frame : ∀ i : Fin 32, i.val < s.cursor.val → s.cell i = t.cell i

/-- The fields of the sensor record but `unread`. -/
def SensorState.SameReadings (r q : SensorState) : Prop := { r with unread := false } = { q with unread := false }

end Sys2Proof.Machine
end

