-- ==== Sys2Proof/Certificates/Slice0/Obligations.lean ====
section
/-! DEFINITION. The statements for the provers. Each docstring names the rules it formalises; a statement about a byte
speaks of `step (s.offer (.byte b))`, the step of state `s` when byte `b` is the next input. -/

open Sys2Proof Sys2Proof.Machine

/-! ### Reset and boot -/

/-- R19, R160, R111, R16: what the machine holds right after reset. The spec gives these values by its decisions D7
(`BUF_INIT`), D8 (cursor, `armed`, no event) and D21 (the zeros). -/
def Obligations.ResetLeavesTheStatedValues : Prop :=
  State.reset.state = .awaitingHeader1 ∧ State.reset.cursor.val = 0 ∧ State.reset.armed = false ∧
  (∀ i : Fin 32, State.reset.cell i = Config.bufInit State.reset.epoch i.val) ∧
  State.reset.trace = [] ∧
  State.reset.sensor.distance = 0 ∧ State.reset.sensor.errorCode = 0 ∧ State.reset.sensor.calibration = 0 ∧
  State.reset.sensor.portMode = 0 ∧ State.reset.sensor.firmware = 0 ∧ State.reset.sensor.productType = 0 ∧
  State.reset.sensor.offset0 = 0 ∧ State.reset.sensor.offset1 = 0 ∧ State.reset.sensor.offset2 = 0 ∧
  State.reset.sensor.offset3 = 0 ∧ State.reset.sensor.crosstalk = 0 ∧ State.reset.sensor.unread = false ∧
  Config.header1 = 0x55 ∧ Config.header2 = 0xAA ∧ Config.endMarker = 0xFA ∧ Config.maxFrame = 32

/-- R13, R17: the invariant holds at reset, and once the block is armed. R13 is the spec's own derivation. -/
def Obligations.ResetSatisfiesInvariant : Prop :=
  State.reset.Inv ∧ State.reset.boot.Hunting

/-- R161: asserting reset gives every item of the block and of the sensor record its reset value, whatever the state was,
and emits nothing. That every cell reads as `BUF_INIT` again is R161's own reading ("a model treats them as `BUF_INIT`");
that the pending inputs and the observations stay is the model's choice (log 3). -/
def Obligations.ResetAssertRestoresEveryItem : Prop :=
  ∀ s : State, ∃ t, step (s.offer .resetAssert) = .next t ∧
    t.state = State.reset.state ∧ t.cursor = State.reset.cursor ∧ t.armed = State.reset.armed ∧
    t.sensor = State.reset.sensor ∧ (∀ i : Fin 32, t.cell i = Config.bufInit t.epoch i.val) ∧
    EventsOf s t [] ∧ t.input = s.input ∧ t.returned = s.returned ∧ t.sent = s.sent

/-- R162, D8: on leaving reset the block arms the Transport and changes nothing else; the first byte after it then has a
step, whatever it is. That boot is an input of its own and emits no event is the model's choice (log 6). -/
def Obligations.BootArmsAndFirstByteRuns : Prop :=
  ∀ s : State, step (s.offer .resetRelease) = .next { s with armed := true } ∧
    ∀ b : Byte, ∃ t, runSteps 3 (((s.offer (.byte b)).offer .resetRelease).offer .resetAssert) = .next t ∧
      t.armed = true

/-! ### Decode and encode -/

/-- R51, R54, R61, R125: decoding the encoder's word of any well-formed instruction gives the instruction back, at
every cursor and length that satisfy the row's condition. The word is the spec's device (D3); its layout in bytes is
the model's (log 14). -/
def Obligations.DecodeOfEncodeIsTheInstruction : Prop :=
  ∀ (i : Instr) (cursor : Nat) (l : Byte), i.wellFormed = true → i.fits cursor l = true →
    decode cursor l (encode i) = .ok i

/-- R51, R61: whatever bytes decode, they are the encoder's word of a well-formed instruction whose row's condition
holds, so no two words stand for one instruction. The layout of the word in bytes is the model's (log 14). -/
def Obligations.EncodeOfDecodeIsTheBytes : Prop :=
  ∀ (bytes : List Byte) (i : Instr) (cursor : Nat) (l : Byte), decode cursor l bytes = .ok i →
    encode i = bytes ∧ i.wellFormed = true ∧ i.fits cursor l = true

/-- R51: in every state of the table of R13 and for every byte exactly one row applies, and it is the one fetched. The
table of R51 is the spec's own derivation from R50. -/
def Obligations.ExactlyOneRowApplies : Prop :=
  ∀ (s : State) (b : Byte), s.Inv →
    RowApplies (s.fetched b) s b ∧ ∀ i : Instr, RowApplies i s b → i = s.fetched b

/-- R61, R54, R125: words written out from the table's encodings decode to their rows, and words of no row do not. The
cursor and length behind a bare table word are the model's (log 14). -/
def Obligations.TableWordsDecodeToTheirRows : Prop :=
  decodeTableWord 16 0b00001010101 = some .h1Match ∧
  decodeTableWord 16 0b00000010010 = some (.h1Ignore 0x12) ∧
  decodeTableWord 16 0b00110101010 = some .h2Match ∧
  decodeTableWord 16 0b00101010101 = some (.h2Resync 0x55) ∧
  decodeTableWord 16 0b01010000001 = some (.cmdStore 0x81) ∧
  decodeTableWord 16 0b01100011011 = some (.lenPayload 27) ∧
  decodeTableWord 16 0b01100000000 = some .lenEmpty ∧
  decodeTableWord 16 0b01100011100 = some (.lenReject 28) ∧
  decodeTableWord 16 0b10001100100 = some (.payMore 0x64) ∧
  decodeTableWord 16 0b10111111010 = some (.endDispatch 0xFA) ∧
  decodeTableWord 16 0b11000000000 = none ∧
  decodeTableWord 8 0b10000001 = some .measure ∧
  decodeTableWord 8 0b10000111 = some (.otherCommand 0x87) ∧
  decodeTableWord 40 0x55AA8100FA = some (.req .measure) ∧
  decodeTableWord 40 0x55AA8000FA = none

/-- R5, R51, R52: when the word of the parser state and the received byte decodes to an instruction, the step is exec
of that instruction at the state without the byte, and nothing more. That the step decodes the word of D3's state code
in the layout of log 14 is the model's form of R52. -/
def Obligations.StepRunsTheDecodedInstruction : Prop :=
  ∀ (s : State) (b : Byte) (i : Instr),
    decode s.cursor.val (s.cell 3) (encodeStep s.state b) = .ok i →
    i.wellFormed = true ∧ step (s.offer (.byte b)) = exec i s

/-! ### The transitions -/

/-- R70: T1 `H1_MATCH`. -/
def Obligations.FirstHeaderByteIsStored : Prop :=
  ∀ s : State, s.armed = true → s.state = .awaitingHeader1 →
    step (s.offer (.byte 0x55)) = exec .h1Match s ∧
    ∃ t, exec .h1Match s = .next t ∧ t.state = .awaitingHeader2 ∧ t.cursor.val = 1 ∧ StoresOnly s t 0 0x55 ∧
      t.armed = true ∧ EventsOf s t [.stored 0 0x55, .rearm] ∧ SameRest s t

/-- R71: T2 `H1_IGNORE`. -/
def Obligations.OtherFirstBytesAreIgnored : Prop :=
  ∀ (s : State) (b : Byte), s.armed = true → s.state = .awaitingHeader1 → b ≠ 0x55 →
    step (s.offer (.byte b)) = exec (.h1Ignore b) s ∧
    ∃ t, exec (.h1Ignore b) s = .next t ∧ t.state = s.state ∧ t.cursor = s.cursor ∧ StoresNothing s t ∧
      t.armed = true ∧ EventsOf s t [.ignored b, .rearm] ∧ SameRest s t

/-- R72: T3 `H2_MATCH`. -/
def Obligations.SecondHeaderByteIsStored : Prop :=
  ∀ s : State, s.armed = true → s.state = .awaitingHeader2 →
    step (s.offer (.byte 0xAA)) = exec .h2Match s ∧
    ∃ t, exec .h2Match s = .next t ∧ t.state = .awaitingCommand ∧ t.cursor.val = 2 ∧ StoresOnly s t 1 0xAA ∧
      t.armed = true ∧ EventsOf s t [.stored 1 0xAA, .rearm] ∧ SameRest s t

/-- R73, R142, R144: T4 `H2_RESYNC`. The byte 0x55 is no exception (D9). The cause's name is the spec's decision D18.
-/
def Obligations.BadSecondHeaderResynchronizes : Prop :=
  ∀ (s : State) (b : Byte), s.armed = true → s.state = .awaitingHeader2 → b ≠ 0xAA →
    step (s.offer (.byte b)) = exec (.h2Resync b) s ∧
    ∃ t, exec (.h2Resync b) s = .next t ∧ t.state = .awaitingHeader1 ∧ t.cursor.val = 0 ∧ StoresNothing s t ∧
      t.armed = true ∧ EventsOf s t [.resync .badHeader2, .rearm] ∧ SameRest s t

/-- R80: T5 `CMD_STORE`. -/
def Obligations.AnyCommandByteIsStored : Prop :=
  ∀ (s : State) (b : Byte), s.Inv → s.armed = true → s.state = .awaitingCommand →
    step (s.offer (.byte b)) = exec (.cmdStore b) s ∧
    ∃ t, exec (.cmdStore b) s = .next t ∧ t.state = .awaitingLength ∧ t.cursor.val = 3 ∧ StoresOnly s t 2 b ∧
      t.armed = true ∧ EventsOf s t [.stored 2 b, .rearm] ∧ SameRest s t

/-- R81: T6 `LEN_PAYLOAD`. -/
def Obligations.LegalLengthStartsThePayload : Prop :=
  ∀ (s : State) (b : Byte), s.Inv → s.armed = true → s.state = .awaitingLength → 1 ≤ b.toNat → b.toNat ≤ 27 →
    step (s.offer (.byte b)) = exec (.lenPayload b) s ∧
    ∃ t, exec (.lenPayload b) s = .next t ∧ t.state = .awaitingPayload ∧ t.cursor.val = 4 ∧ t.len = b ∧
      StoresOnly s t 3 b ∧ t.armed = true ∧ EventsOf s t [.stored 3 b, .rearm] ∧ SameRest s t

/-- R82: T7 `LEN_EMPTY`. -/
def Obligations.ZeroLengthSkipsThePayload : Prop :=
  ∀ s : State, s.Inv → s.armed = true → s.state = .awaitingLength →
    step (s.offer (.byte 0)) = exec .lenEmpty s ∧
    ∃ t, exec .lenEmpty s = .next t ∧ t.state = .awaitingEnd ∧ t.cursor.val = 4 ∧ t.len = 0 ∧
      StoresOnly s t 3 0 ∧ t.armed = true ∧ EventsOf s t [.stored 3 0, .rearm] ∧ SameRest s t

/-- R83, R143, R171: T8 `LEN_REJECT`, for every length from 28 to 255, the ones an 8-bit sum would accept included.
That the sum does not wrap and that the byte is stored first are the spec's decisions D4 and D10. -/
def Obligations.OversizeLengthResynchronizes : Prop :=
  ∀ (s : State) (b : Byte), s.Inv → s.armed = true → s.state = .awaitingLength → 28 ≤ b.toNat →
    step (s.offer (.byte b)) = exec (.lenReject b) s ∧
    ∃ t, exec (.lenReject b) s = .next t ∧ t.state = .awaitingHeader1 ∧ t.cursor.val = 0 ∧
      StoresOnly s t 3 b ∧ t.armed = true ∧ EventsOf s t [.stored 3 b, .resync .oversizeLength, .rearm] ∧ SameRest s t

/-- R90: T9 `PAY_MORE`. The cell stored to is the one at the cursor. -/
def Obligations.PayloadByteIsStoredAndPayloadGoesOn : Prop :=
  ∀ (s : State) (b : Byte), s.Inv → s.armed = true → s.state = .awaitingPayload →
    s.cursor.val + 1 < 4 + s.len.toNat →
    step (s.offer (.byte b)) = exec (.payMore b) s ∧
    ∃ (t : State) (i : Fin 32), exec (.payMore b) s = .next t ∧ i.val = s.cursor.val ∧
      t.state = .awaitingPayload ∧ t.cursor.val = s.cursor.val + 1 ∧ StoresOnly s t i b ∧
      t.armed = true ∧ EventsOf s t [.stored i b, .rearm] ∧ SameRest s t

/-- R91: T10 `PAY_LAST`. -/
def Obligations.LastPayloadByteLeadsToTheTrailer : Prop :=
  ∀ (s : State) (b : Byte), s.Inv → s.armed = true → s.state = .awaitingPayload →
    s.cursor.val + 1 = 4 + s.len.toNat →
    step (s.offer (.byte b)) = exec (.payLast b) s ∧
    ∃ (t : State) (i : Fin 32), exec (.payLast b) s = .next t ∧ i.val = 3 + s.len.toNat ∧
      t.state = .awaitingEnd ∧ t.cursor.val = 4 + s.len.toNat ∧ StoresOnly s t i b ∧
      t.armed = true ∧ EventsOf s t [.stored i b, .rearm] ∧ SameRest s t

/-- R92, R93, R94: T11 `END_DISPATCH`. `mid` is the machine as the interpreter finds it: the trailer stored at `4 +
L`, the cursor `5 + L`, the `Dispatch` event emitted with the whole buffer. The interpreter answers `u`; whatever its
result, the end state is `u` with the buffer cleared and the Transport armed. The dispatch's arguments, `end_ok` and
the ignored result are the spec's decisions D11, D12 and D13. -/
def Obligations.TrailerIsStoredAndFrameDispatched : Prop :=
  ∀ (s : State) (b : Byte), s.Inv → s.armed = true → s.state = .awaitingEnd →
    step (s.offer (.byte b)) = exec (.endDispatch b) s ∧
    ∃ (mid u : State) (i : Fin 32), i.val = 4 + s.len.toNat ∧ StoresOnly s mid i b ∧
      mid.cursor.val = 5 + s.len.toNat ∧ mid.state = .awaitingEnd ∧ mid.armed = false ∧ SameRest s mid ∧
      EventsOf s mid [.stored i b, .dispatch (5 + s.len.toNat) mid.snapshot (b == 0xFA)] ∧
      interpret mid = .next u ∧
      exec (.endDispatch b) s =
        .next { u with state := .awaitingHeader1, cursor := 0, armed := true, trace := u.trace ++ [.rearm] }

/-! ### What surrounds a transition -/

/-- R170: a byte offered while the block is not armed has no step: the one refusal. Having no step is the spec's
decision D15; the refusal is the model's form of it (log 7). -/
def Obligations.ByteWhileNotArmedIsRefused : Prop :=
  ∀ (s : State) (b : Byte), s.armed = false → step (s.offer (.byte b)) = .refused .byteNotArmed

/-- R17, R95: every step that a byte starts ends with the re-arm, once, on every path. Re-arming on every path is the
spec's decision D14. -/
def Obligations.EveryByteStepEndsWithTheRearm : Prop :=
  ∀ (s t : State) (b : Byte), step (s.offer (.byte b)) = .next t →
    t.armed = true ∧ ∃ evs, EventsOf s t (evs ++ [.rearm]) ∧ Event.rearm ∉ evs

/-- R34: at the capacity a store is a fault, never a wrap to index 0. The five transitions that store at the cursor.
That this is a fault is one of the two forms R34 offers a model (log 8). -/
def Obligations.StoreAtTheCapacityFaults : Prop :=
  ∀ (s : State) (b : Byte), s.armed = true → s.cursor.val = 32 →
    ∀ i ∈ [Instr.cmdStore b, .lenPayload b, .lenEmpty, .lenReject b, .payMore b, .payLast b, .endDispatch b],
      exec i s = .fault (.storeOutOfRange 32)

/-- R107, R148: the events of one byte's step. At most one `Resync` and one `Dispatch`, never both; a dispatch only in
`AwaitingEnd`; a resynchronization only in `AwaitingHeader2` or `AwaitingLength`, and it leaves the sensor record as
it is and the parser cleared. R107 is the spec's own derivation. -/
def Obligations.ResyncAndDispatchExcludeEachOther : Prop :=
  ∀ (s t : State) (b : Byte) (evs : List Event), step (s.offer (.byte b)) = .next t → EventsOf s t evs →
    evs.countP Event.isResync ≤ 1 ∧ evs.countP Event.isDispatch ≤ 1 ∧
    (¬ NoDispatch evs → s.state = .awaitingEnd ∧ NoResync evs) ∧
    (¬ NoResync evs → (s.state = .awaitingHeader2 ∨ s.state = .awaitingLength) ∧ NoDispatch evs ∧
      t.sensor = s.sensor ∧ t.state = .awaitingHeader1 ∧ t.cursor.val = 0)

/-- R104: what holds at every dispatch; the reported bit `end_ok` is the source's "valid" (R103). R104 is the spec's
own derivation. -/
def Obligations.EveryDispatchHasAValidHeaderAndLength : Prop :=
  ∀ (s t : State) (b : Byte) (evs : List Event) (size : Nat) (snap : List Byte) (ok : Bool), s.Inv →
    step (s.offer (.byte b)) = .next t → EventsOf s t evs → Event.dispatch size snap ok ∈ evs →
    headerOK snap = true ∧ (∃ l, snap[3]? = some l ∧ lengthOK l = true ∧ size = l.toNat + 5) ∧
    5 ≤ size ∧ size ≤ 32 ∧ frameValid snap size = ok

/-- R16, R20: the output ports after a byte's step. The ports are the spec's decision D2; a strobe with its qualified
ports as one Option is the model's (log 15). -/
def Obligations.PortsShowTheStepAndItsEvents : Prop :=
  ∀ (s t : State) (b : Byte) (evs : List Event), s.Inv → step (s.offer (.byte b)) = .next t → EventsOf s t evs →
    (outputPorts t evs).rxArm = true ∧
    (outputPorts t evs).stateO = stateCode t.state ∧
    (outputPorts t evs).cursorO.toNat = t.cursor.val ∧
    (outputPorts t evs).disp =
      (if s.state = .awaitingEnd then some (BitVec.ofNat 6 (s.len.toNat + 5), b == 0xFA) else none) ∧
    (outputPorts t evs).resync =
      (if s.state = .awaitingHeader2 ∧ b ≠ 0xAA then some 0
       else if s.state = .awaitingLength ∧ 28 ≤ b.toNat then some 1
       else none)

/-! ### Invariants over all steps -/

/-- R13: every step, whatever its input, keeps the invariant. -/
def Obligations.EveryStepKeepsTheInvariant : Prop :=
  ∀ s t : State, s.Inv → step s = .next t → t.Inv

/-- R140, in the states of R13 (the spec's own derivation): the step answers a next state, and has no fault; the only
refusal is a byte offered while the block is not armed. That a step with no input pending is a step is the model's choice
(log 1), and the refusal `byteNotArmed` is the model's form of a byte that has no step (log 7). -/
def Obligations.StepNeverFaults : Prop :=
  ∀ s : State, s.Inv →
    (∃ t, step s = .next t) ∨
    (step s = .refused .byteNotArmed ∧ s.armed = false ∧ ∃ b rest, s.input = .byte b :: rest)

/-- R108: for all byte sequences of any length, from the state after reset and boot and from every state of the
invariant, every byte has its step, no step leaves the buffer's bounds and the invariant holds throughout. R108 is the
spec's own derivation. -/
def Obligations.AnyByteSequenceStaysInBounds : Prop :=
  ∀ (s : State) (bs : List Byte), s.Inv → s.armed = true →
    ∃ t, runSteps bs.length (s.feed bs) = .next t ∧ t.Inv ∧ t.armed = true ∧ t.cursor.val ≤ 31 ∧ t.input = s.input

/-- R109: from any state of the invariant the parser is back in `AwaitingHeader1` with the cursor 0 after at most 31
further bytes, whatever they are. R109 is the spec's own derivation. -/
def Obligations.ThirtyOneBytesReachTheHeaderHunt : Prop :=
  ∀ (s : State) (bs : List Byte), s.Inv → s.armed = true → bs.length = 31 →
    ∃ k t, k ≤ 31 ∧ runSteps k (s.feed bs) = .next t ∧ t.state = .awaitingHeader1 ∧ t.cursor.val = 0

/-- R150, R174: with no input pending nothing changes, however many steps go by: a partial frame never expires. That an
idle step is a step is the model's choice (log 1). -/
def Obligations.PartialFrameWaitsForEver : Prop :=
  ∀ (s : State) (k : Nat), s.input = [] → runSteps k s = .next s

/-! ### Whole frames -/

/-- R106: a dispatchable frame that finds the parser hunting takes exactly the transitions T1, T3, T5, then T7, or T6
with the payload's, then T11; it is dispatched exactly once, in the last step, with its own bytes and size; no
resynchronization is emitted; the parser hunts again. R106 is the spec's own derivation. -/
def Obligations.FrameIsDispatchedExactlyOnce : Prop :=
  ∀ (s : State) (c : Byte) (p : List Byte) (e : Byte), s.Hunting → p.length ≤ 27 →
    executed (dispatchable c p e).length (s.feed (dispatchable c p e)) = frameTransitions c p e ∧
    ∃ (t : State) (evs : List Event) (snap : List Byte) (ok : Bool),
      runSteps (dispatchable c p e).length (s.feed (dispatchable c p e)) = .next t ∧
      t.Hunting ∧ t.cursor.val = 0 ∧ t.input = s.input ∧
      EventsOf s t (evs ++ [.dispatch (dispatchable c p e).length snap (e == 0xFA), .interpResult ok, .rearm]) ∧
      NoDispatch evs ∧ NoResync evs ∧
      snap.take (dispatchable c p e).length = dispatchable c p e

/-- R32: while a frame is being received, `buf[0 .. cursor-1]` holds its bytes in arrival order and the cursor is
their count. R32 is the spec's own derivation. -/
def Obligations.FrameBytesStandInArrivalOrder : Prop :=
  ∀ (s : State) (c : Byte) (p : List Byte) (e : Byte) (k : Nat), s.Hunting → p.length ≤ 27 →
    k < (dispatchable c p e).length →
    ∃ t, runSteps k (s.feed (dispatchable c p e)) = .next t ∧ t.cursor.val = k ∧ t.Inv ∧
      ∀ i : Fin 32, i.val < k → (dispatchable c p e)[i.val]? = some (t.cell i)

/-- R107, C2: a frame attempt with a bad second header byte, or with an oversize length, is never dispatched, leaves the
sensor record as it is, and leaves the parser hunting, so that a later frame is decoded. -/
def Obligations.RejectedAttemptIsNeverDispatched : Prop :=
  (∀ (s : State) (b : Byte), s.Hunting → b ≠ 0xAA →
    ∃ t evs, runSteps 2 (s.feed [0x55, b]) = .next t ∧ t.Hunting ∧ EventsOf s t evs ∧
      NoDispatch evs ∧ Event.resync .badHeader2 ∈ evs ∧ SameRest s t) ∧
  (∀ (s : State) (c l : Byte), s.Hunting → 28 ≤ l.toNat →
    ∃ t evs, runSteps 4 (s.feed [0x55, 0xAA, c, l]) = .next t ∧ t.Hunting ∧ EventsOf s t evs ∧
      NoDispatch evs ∧ Event.resync .oversizeLength ∈ evs ∧ SameRest s t)

/-- R172: with the parser hunting, `k` stray 0x55 bytes directly before a frame's two header bytes leave the parser at
the frame's command byte when `k` is even, and hunting, the header bytes lost, when `k` is odd. R172 is the spec's own
derivation and rests on its decision D9. -/
def Obligations.OddStrayHeaderBytesLoseTheFrame : Prop :=
  ∀ (s : State) (k : Nat), s.Hunting →
    ∃ t evs, runSteps (k + 2) (s.feed (List.replicate k 0x55 ++ [0x55, 0xAA])) = .next t ∧
      t.state = (if k % 2 = 0 then .awaitingCommand else .awaitingHeader1) ∧
      t.cursor.val = (if k % 2 = 0 then 2 else 0) ∧ EventsOf s t evs ∧ NoDispatch evs ∧ SameRest s t

/-- R71, R172: with the parser hunting, bytes none of which is 0x55 are ignored one by one: nothing is stored or
dispatched and the parser still hunts. -/
def Obligations.BytesWithoutHeaderAreAllIgnored : Prop :=
  ∀ (s : State) (bs : List Byte), s.Hunting → 0x55 ∉ bs →
    ∃ t, runSteps bs.length (s.feed bs) = .next t ∧ t.Hunting ∧ t.cursor = s.cursor ∧ t.buf = s.buf ∧
      EventsOf s t (bs.flatMap (fun b => [.ignored b, .rearm])) ∧ SameRest s t

/-- R113, R115, R116, R118: a frame whose payload has at least what its command needs delivers its bytes to the sensor
record and sets the unread flag, under both settings of `INTERP_LEN_CHECK`, whatever its trailer. The offsets of
GetFactoryDefaultSettings are the spec's decision D19, the two settings its D20. -/
def Obligations.FramesDeliverTheirPayload : Prop :=
  (∀ (s : State) (b0 b1 b2 e : Byte) (q : List Byte), s.Hunting → q.length ≤ 24 →
    ∃ t, runSteps (q.length + 8) (s.feed (dispatchable 0x81 ([b0, b1, b2] ++ q) e)) = .next t ∧
      t.sensor = { s.sensor with
        distance := BitVec.ofNat 16 (256 * b0.toNat + b1.toNat), errorCode := b2, unread := true }) ∧
  (∀ (s : State) (b0 b1 b2 e : Byte) (q : List Byte), s.Hunting → q.length ≤ 24 →
    ∃ t, runSteps (q.length + 8) (s.feed (dispatchable 0x86 ([b0, b1, b2] ++ q) e)) = .next t ∧
      t.sensor = { s.sensor with productType := b0, portMode := b1, firmware := b2, unread := true }) ∧
  (∀ (s : State) (b0 b1 b2 b3 b4 b5 b6 e : Byte) (q : List Byte), s.Hunting → q.length ≤ 20 →
    ∃ t, runSteps (q.length + 12) (s.feed (dispatchable 0x85 ([b0, b1, b2, b3, b4, b5, b6] ++ q) e)) = .next t ∧
      t.sensor = { s.sensor with
        offset0 := b0, offset1 := b1, offset2 := b2, offset3 := b3,
        crosstalk := BitVec.ofNat 16 (256 * b4.toNat + b5.toNat), calibration := b6, unread := true })

/-- R127: a request frame fed back to a hunting parser is dispatched with size 5. Without `INTERP_LEN_CHECK` a Measure
request is read as a reading whose high byte is the trailer and whose other bytes are stale cells; with it, it fails.
R127 is the spec's own derivation. -/
def Obligations.RequestFedBackIsDispatched : Prop :=
  ∀ (s : State) (c : Command), s.Hunting →
    executed 5 (s.feed (requestFrame c)) =
      [.h1Match, .h2Match, .cmdStore (commandCode c), .lenEmpty, .endDispatch 0xFA] ∧
    ∃ (t : State) (evs : List Event) (snap : List Byte) (ok : Bool),
      runSteps 5 (s.feed (requestFrame c)) = .next t ∧ t.Hunting ∧
      EventsOf s t (evs ++ [.dispatch 5 snap true, .interpResult ok, .rearm]) ∧ NoDispatch evs ∧
      (c = .measure →
        if Config.interpLenCheck = true then t.sensor = s.sensor ∧ ok = false
        else ok = true ∧ t.sensor = { s.sensor with
          distance := BitVec.ofNat 16 (256 * 0xFA + (s.cell 5).toNat), errorCode := s.cell 6, unread := true }) ∧
      (c = .reset → ok = true ∧ t.sensor = { s.sensor with unread := true })

/-! ### Isolation -/

/-- R40, R41, R94: the parser never depends on stale cells, on `BUF_INIT`, or on the companions: two machines at the
same point of the same frame stay so under the same byte. That clearing keeps the cells is the spec's decision D6. -/
def Obligations.StaleCellsNeverSteerTheParser : Prop :=
  ∀ (s s' : State) (b : Byte), s.Inv → s'.Inv → SameParse s s' → s.armed = true →
    ∃ t t', step (s.offer (.byte b)) = .next t ∧ step (s'.offer (.byte b)) = .next t' ∧ SameParse t t'

/-- R149, R126: the normal context's operations always complete and touch neither the parser, nor the buffer, nor the
event trace, nor a reading of the sensor record. -/
def Obligations.NormalContextLeavesTheParserAlone : Prop :=
  ∀ (s : State) (x : Input), (x = .takeUnread ∨ (∃ f, x = .read f) ∨ ∃ c, x = .send c) →
    ∃ t, step (s.offer x) = .next t ∧ t.state = s.state ∧ t.cursor = s.cursor ∧ t.buf = s.buf ∧ t.armed = s.armed ∧
      t.epoch = s.epoch ∧ t.trace = s.trace ∧ t.input = s.input ∧ t.sensor.SameReadings s.sensor

/-- R111, R118: the sensor record changes only by a reset, by `takeUnreadFlag()`, which clears `unread`, or in the step of
a trailer byte whose frame's command is one of the four recognized; that step then reports success and leaves `unread`
set. -/
def Obligations.SensorChangesOnlyByRecognizedFrames : Prop :=
  ∀ (s t : State) (x : Input), s.Inv → step (s.offer x) = .next t → t.sensor ≠ s.sensor →
    x = .resetAssert ∨
    (x = .takeUnread ∧ t.sensor = { s.sensor with unread := false }) ∨
    (s.state = .awaitingEnd ∧ (∃ b, x = .byte b) ∧
      (s.cell 2 = 0x81 ∨ s.cell 2 = 0x84 ∨ s.cell 2 = 0x85 ∨ s.cell 2 = 0x86) ∧
      t.sensor.unread = true ∧ ∃ evs, EventsOf s t evs ∧ Event.interpResult true ∈ evs)

/-- R118, R121: along any run without a reset and without a `takeUnreadFlag()` call, from a state whose unread flag is
clear, the flag is set exactly when some interpretation has succeeded. -/
def Obligations.UnreadIsSetExactlyBySuccess : Prop :=
  ∀ (k : Nat) (s t : State) (evs : List Event), s.sensor.unread = false →
    (∀ x ∈ s.input, x ≠ .resetAssert ∧ x ≠ .takeUnread) →
    runSteps k s = .next t → EventsOf s t evs →
    (t.sensor.unread = true ↔ Event.interpResult true ∈ evs)

/-! ### The interpreter's rows -/

/-- R112: the interpreter runs the row of the stored command byte. -/
def Obligations.InterpreterRunsTheCommandRow : Prop :=
  ∀ s : State, interpret s = exec (decodeCommand (s.cell 2)) s

/-- R113, R118, R119: `Measure`, under either setting of `INTERP_LEN_CHECK`. `INTERP_LEN_CHECK` is the spec's decision
D20, an open parameter here (log 5). -/
def Obligations.MeasureWritesDistanceAndErrorCode : Prop :=
  ∀ s : State, ∃ ok r, exec .measure s = .next { s with sensor := r, trace := s.trace ++ [.interpResult ok] } ∧
    ok = (decide (3 ≤ s.len.toNat) || !Config.interpLenCheck) ∧
    r = if ok = true then { s.sensor with
          distance := BitVec.ofNat 16 (256 * (s.cell 4).toNat + (s.cell 5).toNat)
          errorCode := s.cell 6
          unread := true } else s.sensor

/-- R114, R118: `Reset` writes no reading field, succeeds and sets `unread`. -/
def Obligations.ResetResponseOnlySetsUnread : Prop :=
  ∀ s : State, exec .reset s = .next { s with
    sensor := { s.sensor with unread := true }, trace := s.trace ++ [.interpResult true] }

/-- R115, R118, R119: `GetFactoryDefaultSettings`. The offsets are the spec's decision D19, `INTERP_LEN_CHECK` its
D20, an open parameter here (log 5). -/
def Obligations.FactorySettingsAreWritten : Prop :=
  ∀ s : State, ∃ ok r,
    exec .getFactoryDefaultSettings s = .next { s with sensor := r, trace := s.trace ++ [.interpResult ok] } ∧
    ok = (decide (7 ≤ s.len.toNat) || !Config.interpLenCheck) ∧
    r = if ok = true then { s.sensor with
          offset0 := s.cell 4
          offset1 := s.cell 5
          offset2 := s.cell 6
          offset3 := s.cell 7
          crosstalk := BitVec.ofNat 16 (256 * (s.cell 8).toNat + (s.cell 9).toNat)
          calibration := s.cell 10
          unread := true } else s.sensor

/-- R116, R118, R119: `GetProductInfo`. `INTERP_LEN_CHECK` is the spec's decision D20, an open parameter here (log 5).
-/
def Obligations.ProductInfoIsWritten : Prop :=
  ∀ s : State, ∃ ok r,
    exec .getProductInfo s = .next { s with sensor := r, trace := s.trace ++ [.interpResult ok] } ∧
    ok = (decide (3 ≤ s.len.toNat) || !Config.interpLenCheck) ∧
    r = if ok = true then { s.sensor with
          productType := s.cell 4
          portMode := s.cell 5
          firmware := s.cell 6
          unread := true } else s.sensor

/-- R117: every other command byte, 0x82 and 0x83 included: failure, the sensor record untouched. -/
def Obligations.OtherCommandsFailAndChangeNothing : Prop :=
  ∀ (s : State) (c : Byte), ∀ i ∈ [Instr.crosstalkCorrection, .offsetCorrection, .otherCommand c],
    exec i s = .next { s with trace := s.trace ++ [.interpResult false] }

/-! ### The encoder and the consumer -/

/-- R124, R125: the request of each command is its five bytes, handed to the Transport; nothing else changes. -/
def Obligations.RequestIsFiveBytes : Prop :=
  ∀ (s : State) (c : Command),
    step (s.offer (.send c)) = exec (.req c) s ∧
    exec (.req c) s = .next { s with sent := s.sent ++ [[0x55, 0xAA,
      (match c with
        | .measure => 0x81
        | .crosstalkCorrection => 0x82
        | .offsetCorrection => 0x83
        | .reset => 0x84
        | .getFactoryDefaultSettings => 0x85
        | .getProductInfo => 0x86), 0x00, 0xFA]] }

/-- R120: an accessor returns the latest stored value and changes nothing. -/
def Obligations.AccessorsReturnTheStoredValue : Prop :=
  ∀ s : State,
    step (s.offer (.read .distance)) = .next { s with returned := s.returned ++ [.half .distance s.sensor.distance] } ∧
    step (s.offer (.read .port)) = .next { s with returned := s.returned ++ [.byte .port s.sensor.portMode] } ∧
    step (s.offer (.read .firmware)) = .next { s with returned := s.returned ++ [.byte .firmware s.sensor.firmware] } ∧
    step (s.offer (.read .calibration)) =
      .next { s with returned := s.returned ++ [.byte .calibration s.sensor.calibration] }

/-- R121: `takeUnreadFlag()` returns the flag and clears it; a second call with no frame between returns false. -/
def Obligations.TakeUnreadReturnsTheFlagOnce : Prop :=
  ∀ s : State, ∃ t,
    step (s.offer .takeUnread) = .next t ∧
    t = { s with sensor := { s.sensor with unread := false }, returned := s.returned ++ [.unread s.sensor.unread] } ∧
    step (t.offer .takeUnread) = .next { t with returned := t.returned ++ [.unread false] }

/-- R7, R33: a 16-bit field has the byte at the lower index as its more significant one. -/
def Obligations.HalfIsBigEndian : Prop :=
  ∀ (s : State) (i j : Fin 32), (s.half i j).toNat = 256 * (s.cell i).toNat + (s.cell j).toNat
end

