-- ==== Sys2Proof/Laws/State.lean ====
section
/-! SUPPORT. One lemma for each field of each named update of the state, true by rfl: no later proof unfolds an update. -/

namespace Sys2Proof.Machine

open Sys2Proof

variable (s : State)

@[simp] theorem write_state (i : Fin 32) (b : Byte) : (s.write i b).state = s.state := rfl
@[simp] theorem write_cursor (i : Fin 32) (b : Byte) : (s.write i b).cursor = s.cursor := rfl
@[simp] theorem write_buf (i : Fin 32) (b : Byte) : (s.write i b).buf = Memory.put s.buf i.val b := rfl
@[simp] theorem write_armed (i : Fin 32) (b : Byte) : (s.write i b).armed = s.armed := rfl
@[simp] theorem write_sensor (i : Fin 32) (b : Byte) : (s.write i b).sensor = s.sensor := rfl
@[simp] theorem write_epoch (i : Fin 32) (b : Byte) : (s.write i b).epoch = s.epoch := rfl
@[simp] theorem write_input (i : Fin 32) (b : Byte) : (s.write i b).input = s.input := rfl
@[simp] theorem write_trace (i : Fin 32) (b : Byte) : (s.write i b).trace = s.trace := rfl
@[simp] theorem write_returned (i : Fin 32) (b : Byte) : (s.write i b).returned = s.returned := rfl
@[simp] theorem write_sent (i : Fin 32) (b : Byte) : (s.write i b).sent = s.sent := rfl

@[simp] theorem emit_state (e : Event) : (s.emit e).state = s.state := rfl
@[simp] theorem emit_cursor (e : Event) : (s.emit e).cursor = s.cursor := rfl
@[simp] theorem emit_buf (e : Event) : (s.emit e).buf = s.buf := rfl
@[simp] theorem emit_armed (e : Event) : (s.emit e).armed = s.armed := rfl
@[simp] theorem emit_sensor (e : Event) : (s.emit e).sensor = s.sensor := rfl
@[simp] theorem emit_epoch (e : Event) : (s.emit e).epoch = s.epoch := rfl
@[simp] theorem emit_input (e : Event) : (s.emit e).input = s.input := rfl
@[simp] theorem emit_trace (e : Event) : (s.emit e).trace = s.trace ++ [e] := rfl
@[simp] theorem emit_returned (e : Event) : (s.emit e).returned = s.returned := rfl
@[simp] theorem emit_sent (e : Event) : (s.emit e).sent = s.sent := rfl
@[simp] theorem emit_cell (e : Event) (k : Fin 32) : (s.emit e).cell k = s.cell k := rfl
@[simp] theorem emit_len (e : Event) : (s.emit e).len = s.len := rfl

@[simp] theorem goto_state (st : ParserState) : (s.goto st).state = st := rfl
@[simp] theorem goto_cursor (st : ParserState) : (s.goto st).cursor = s.cursor := rfl
@[simp] theorem goto_buf (st : ParserState) : (s.goto st).buf = s.buf := rfl
@[simp] theorem goto_armed (st : ParserState) : (s.goto st).armed = s.armed := rfl
@[simp] theorem goto_sensor (st : ParserState) : (s.goto st).sensor = s.sensor := rfl
@[simp] theorem goto_epoch (st : ParserState) : (s.goto st).epoch = s.epoch := rfl
@[simp] theorem goto_input (st : ParserState) : (s.goto st).input = s.input := rfl
@[simp] theorem goto_trace (st : ParserState) : (s.goto st).trace = s.trace := rfl
@[simp] theorem goto_returned (st : ParserState) : (s.goto st).returned = s.returned := rfl
@[simp] theorem goto_sent (st : ParserState) : (s.goto st).sent = s.sent := rfl
@[simp] theorem goto_cell (st : ParserState) (k : Fin 32) : (s.goto st).cell k = s.cell k := rfl
@[simp] theorem goto_len (st : ParserState) : (s.goto st).len = s.len := rfl

@[simp] theorem setCursor_state (c : Fin 33) : (s.setCursor c).state = s.state := rfl
@[simp] theorem setCursor_cursor (c : Fin 33) : (s.setCursor c).cursor = c := rfl
@[simp] theorem setCursor_buf (c : Fin 33) : (s.setCursor c).buf = s.buf := rfl
@[simp] theorem setCursor_armed (c : Fin 33) : (s.setCursor c).armed = s.armed := rfl
@[simp] theorem setCursor_sensor (c : Fin 33) : (s.setCursor c).sensor = s.sensor := rfl
@[simp] theorem setCursor_epoch (c : Fin 33) : (s.setCursor c).epoch = s.epoch := rfl
@[simp] theorem setCursor_input (c : Fin 33) : (s.setCursor c).input = s.input := rfl
@[simp] theorem setCursor_trace (c : Fin 33) : (s.setCursor c).trace = s.trace := rfl
@[simp] theorem setCursor_returned (c : Fin 33) : (s.setCursor c).returned = s.returned := rfl
@[simp] theorem setCursor_sent (c : Fin 33) : (s.setCursor c).sent = s.sent := rfl
@[simp] theorem setCursor_cell (c : Fin 33) (k : Fin 32) : (s.setCursor c).cell k = s.cell k := rfl
@[simp] theorem setCursor_len (c : Fin 33) : (s.setCursor c).len = s.len := rfl

@[simp] theorem storeAt_state (i : Fin 32) (b : Byte) : (s.storeAt i b).state = s.state := rfl
@[simp] theorem storeAt_cursor (i : Fin 32) (b : Byte) : (s.storeAt i b).cursor = s.cursor := rfl
@[simp] theorem storeAt_buf (i : Fin 32) (b : Byte) : (s.storeAt i b).buf = Memory.put s.buf i.val b := rfl
@[simp] theorem storeAt_armed (i : Fin 32) (b : Byte) : (s.storeAt i b).armed = s.armed := rfl
@[simp] theorem storeAt_sensor (i : Fin 32) (b : Byte) : (s.storeAt i b).sensor = s.sensor := rfl
@[simp] theorem storeAt_epoch (i : Fin 32) (b : Byte) : (s.storeAt i b).epoch = s.epoch := rfl
@[simp] theorem storeAt_input (i : Fin 32) (b : Byte) : (s.storeAt i b).input = s.input := rfl
@[simp] theorem storeAt_trace (i : Fin 32) (b : Byte) : (s.storeAt i b).trace = s.trace ++ [.stored i b] := rfl
@[simp] theorem storeAt_returned (i : Fin 32) (b : Byte) : (s.storeAt i b).returned = s.returned := rfl
@[simp] theorem storeAt_sent (i : Fin 32) (b : Byte) : (s.storeAt i b).sent = s.sent := rfl

@[simp] theorem clear_state : (s.clear).state = .awaitingHeader1 := rfl
@[simp] theorem clear_cursor : (s.clear).cursor = 0 := rfl
@[simp] theorem clear_buf : (s.clear).buf = s.buf := rfl
@[simp] theorem clear_armed : (s.clear).armed = s.armed := rfl
@[simp] theorem clear_sensor : (s.clear).sensor = s.sensor := rfl
@[simp] theorem clear_epoch : (s.clear).epoch = s.epoch := rfl
@[simp] theorem clear_input : (s.clear).input = s.input := rfl
@[simp] theorem clear_trace : (s.clear).trace = s.trace := rfl
@[simp] theorem clear_returned : (s.clear).returned = s.returned := rfl
@[simp] theorem clear_sent : (s.clear).sent = s.sent := rfl
@[simp] theorem clear_cell (k : Fin 32) : (s.clear).cell k = s.cell k := rfl
@[simp] theorem clear_len : (s.clear).len = s.len := rfl

@[simp] theorem resync_state (c : ResyncCause) : (s.resync c).state = .awaitingHeader1 := rfl
@[simp] theorem resync_cursor (c : ResyncCause) : (s.resync c).cursor = 0 := rfl
@[simp] theorem resync_buf (c : ResyncCause) : (s.resync c).buf = s.buf := rfl
@[simp] theorem resync_armed (c : ResyncCause) : (s.resync c).armed = s.armed := rfl
@[simp] theorem resync_sensor (c : ResyncCause) : (s.resync c).sensor = s.sensor := rfl
@[simp] theorem resync_epoch (c : ResyncCause) : (s.resync c).epoch = s.epoch := rfl
@[simp] theorem resync_input (c : ResyncCause) : (s.resync c).input = s.input := rfl
@[simp] theorem resync_trace (c : ResyncCause) : (s.resync c).trace = s.trace ++ [.resync c] := rfl
@[simp] theorem resync_returned (c : ResyncCause) : (s.resync c).returned = s.returned := rfl
@[simp] theorem resync_sent (c : ResyncCause) : (s.resync c).sent = s.sent := rfl
@[simp] theorem resync_cell (c : ResyncCause) (k : Fin 32) : (s.resync c).cell k = s.cell k := rfl
@[simp] theorem resync_len (c : ResyncCause) : (s.resync c).len = s.len := rfl

@[simp] theorem rearm_state : (s.rearm).state = s.state := rfl
@[simp] theorem rearm_cursor : (s.rearm).cursor = s.cursor := rfl
@[simp] theorem rearm_buf : (s.rearm).buf = s.buf := rfl
@[simp] theorem rearm_armed : (s.rearm).armed = true := rfl
@[simp] theorem rearm_sensor : (s.rearm).sensor = s.sensor := rfl
@[simp] theorem rearm_epoch : (s.rearm).epoch = s.epoch := rfl
@[simp] theorem rearm_input : (s.rearm).input = s.input := rfl
@[simp] theorem rearm_trace : (s.rearm).trace = s.trace ++ [.rearm] := rfl
@[simp] theorem rearm_returned : (s.rearm).returned = s.returned := rfl
@[simp] theorem rearm_sent : (s.rearm).sent = s.sent := rfl
@[simp] theorem rearm_cell (k : Fin 32) : (s.rearm).cell k = s.cell k := rfl
@[simp] theorem rearm_len : (s.rearm).len = s.len := rfl

@[simp] theorem disarm_state : (s.disarm).state = s.state := rfl
@[simp] theorem disarm_cursor : (s.disarm).cursor = s.cursor := rfl
@[simp] theorem disarm_buf : (s.disarm).buf = s.buf := rfl
@[simp] theorem disarm_armed : (s.disarm).armed = false := rfl
@[simp] theorem disarm_sensor : (s.disarm).sensor = s.sensor := rfl
@[simp] theorem disarm_epoch : (s.disarm).epoch = s.epoch := rfl
@[simp] theorem disarm_input : (s.disarm).input = s.input := rfl
@[simp] theorem disarm_trace : (s.disarm).trace = s.trace := rfl
@[simp] theorem disarm_returned : (s.disarm).returned = s.returned := rfl
@[simp] theorem disarm_sent : (s.disarm).sent = s.sent := rfl
@[simp] theorem disarm_cell (k : Fin 32) : (s.disarm).cell k = s.cell k := rfl
@[simp] theorem disarm_len : (s.disarm).len = s.len := rfl

@[simp] theorem applyReset_state : (s.applyReset).state = .awaitingHeader1 := rfl
@[simp] theorem applyReset_cursor : (s.applyReset).cursor = 0 := rfl
@[simp] theorem applyReset_buf : (s.applyReset).buf = [] := rfl
@[simp] theorem applyReset_armed : (s.applyReset).armed = false := rfl
@[simp] theorem applyReset_sensor : (s.applyReset).sensor = SensorState.initial := rfl
@[simp] theorem applyReset_epoch : (s.applyReset).epoch = s.epoch + 1 := rfl
@[simp] theorem applyReset_input : (s.applyReset).input = s.input := rfl
@[simp] theorem applyReset_trace : (s.applyReset).trace = s.trace := rfl
@[simp] theorem applyReset_returned : (s.applyReset).returned = s.returned := rfl
@[simp] theorem applyReset_sent : (s.applyReset).sent = s.sent := rfl

@[simp] theorem boot_state : (s.boot).state = s.state := rfl
@[simp] theorem boot_cursor : (s.boot).cursor = s.cursor := rfl
@[simp] theorem boot_buf : (s.boot).buf = s.buf := rfl
@[simp] theorem boot_armed : (s.boot).armed = true := rfl
@[simp] theorem boot_sensor : (s.boot).sensor = s.sensor := rfl
@[simp] theorem boot_epoch : (s.boot).epoch = s.epoch := rfl
@[simp] theorem boot_input : (s.boot).input = s.input := rfl
@[simp] theorem boot_trace : (s.boot).trace = s.trace := rfl
@[simp] theorem boot_returned : (s.boot).returned = s.returned := rfl
@[simp] theorem boot_sent : (s.boot).sent = s.sent := rfl
@[simp] theorem boot_cell (k : Fin 32) : (s.boot).cell k = s.cell k := rfl
@[simp] theorem boot_len : (s.boot).len = s.len := rfl

@[simp] theorem offer_state (x : Input) : (s.offer x).state = s.state := rfl
@[simp] theorem offer_cursor (x : Input) : (s.offer x).cursor = s.cursor := rfl
@[simp] theorem offer_buf (x : Input) : (s.offer x).buf = s.buf := rfl
@[simp] theorem offer_armed (x : Input) : (s.offer x).armed = s.armed := rfl
@[simp] theorem offer_sensor (x : Input) : (s.offer x).sensor = s.sensor := rfl
@[simp] theorem offer_epoch (x : Input) : (s.offer x).epoch = s.epoch := rfl
@[simp] theorem offer_input (x : Input) : (s.offer x).input = x :: s.input := rfl
@[simp] theorem offer_trace (x : Input) : (s.offer x).trace = s.trace := rfl
@[simp] theorem offer_returned (x : Input) : (s.offer x).returned = s.returned := rfl
@[simp] theorem offer_sent (x : Input) : (s.offer x).sent = s.sent := rfl
@[simp] theorem offer_cell (x : Input) (k : Fin 32) : (s.offer x).cell k = s.cell k := rfl
@[simp] theorem offer_len (x : Input) : (s.offer x).len = s.len := rfl

@[simp] theorem interpretFailed_state : (s.interpretFailed).state = s.state := rfl
@[simp] theorem interpretFailed_cursor : (s.interpretFailed).cursor = s.cursor := rfl
@[simp] theorem interpretFailed_buf : (s.interpretFailed).buf = s.buf := rfl
@[simp] theorem interpretFailed_armed : (s.interpretFailed).armed = s.armed := rfl
@[simp] theorem interpretFailed_sensor : (s.interpretFailed).sensor = s.sensor := rfl
@[simp] theorem interpretFailed_epoch : (s.interpretFailed).epoch = s.epoch := rfl
@[simp] theorem interpretFailed_input : (s.interpretFailed).input = s.input := rfl
@[simp] theorem interpretFailed_trace : (s.interpretFailed).trace = s.trace ++ [.interpResult false] := rfl
@[simp] theorem interpretFailed_returned : (s.interpretFailed).returned = s.returned := rfl
@[simp] theorem interpretFailed_sent : (s.interpretFailed).sent = s.sent := rfl
@[simp] theorem interpretFailed_cell (k : Fin 32) : (s.interpretFailed).cell k = s.cell k := rfl
@[simp] theorem interpretFailed_len : (s.interpretFailed).len = s.len := rfl

@[simp] theorem interpretOk_state (r : SensorState) : (s.interpretOk r).state = s.state := rfl
@[simp] theorem interpretOk_cursor (r : SensorState) : (s.interpretOk r).cursor = s.cursor := rfl
@[simp] theorem interpretOk_buf (r : SensorState) : (s.interpretOk r).buf = s.buf := rfl
@[simp] theorem interpretOk_armed (r : SensorState) : (s.interpretOk r).armed = s.armed := rfl
@[simp] theorem interpretOk_sensor (r : SensorState) : (s.interpretOk r).sensor = { r with unread := true } := rfl
@[simp] theorem interpretOk_epoch (r : SensorState) : (s.interpretOk r).epoch = s.epoch := rfl
@[simp] theorem interpretOk_input (r : SensorState) : (s.interpretOk r).input = s.input := rfl
@[simp] theorem interpretOk_trace (r : SensorState) : (s.interpretOk r).trace = s.trace ++ [.interpResult true] := rfl
@[simp] theorem interpretOk_returned (r : SensorState) : (s.interpretOk r).returned = s.returned := rfl
@[simp] theorem interpretOk_sent (r : SensorState) : (s.interpretOk r).sent = s.sent := rfl
@[simp] theorem interpretOk_cell (r : SensorState) (k : Fin 32) : (s.interpretOk r).cell k = s.cell k := rfl
@[simp] theorem interpretOk_len (r : SensorState) : (s.interpretOk r).len = s.len := rfl

@[simp] theorem access_state (f : Accessor) : (s.access f).state = s.state := rfl
@[simp] theorem access_cursor (f : Accessor) : (s.access f).cursor = s.cursor := rfl
@[simp] theorem access_buf (f : Accessor) : (s.access f).buf = s.buf := rfl
@[simp] theorem access_armed (f : Accessor) : (s.access f).armed = s.armed := rfl
@[simp] theorem access_sensor (f : Accessor) : (s.access f).sensor = s.sensor := rfl
@[simp] theorem access_epoch (f : Accessor) : (s.access f).epoch = s.epoch := rfl
@[simp] theorem access_input (f : Accessor) : (s.access f).input = s.input := rfl
@[simp] theorem access_trace (f : Accessor) : (s.access f).trace = s.trace := rfl
@[simp] theorem access_returned (f : Accessor) : (s.access f).returned = s.returned ++ [s.sensor.get f] := rfl
@[simp] theorem access_sent (f : Accessor) : (s.access f).sent = s.sent := rfl
@[simp] theorem access_cell (f : Accessor) (k : Fin 32) : (s.access f).cell k = s.cell k := rfl
@[simp] theorem access_len (f : Accessor) : (s.access f).len = s.len := rfl

@[simp] theorem takeUnreadFlag_state : (s.takeUnreadFlag).state = s.state := rfl
@[simp] theorem takeUnreadFlag_cursor : (s.takeUnreadFlag).cursor = s.cursor := rfl
@[simp] theorem takeUnreadFlag_buf : (s.takeUnreadFlag).buf = s.buf := rfl
@[simp] theorem takeUnreadFlag_armed : (s.takeUnreadFlag).armed = s.armed := rfl
@[simp] theorem takeUnreadFlag_sensor : (s.takeUnreadFlag).sensor = { s.sensor with unread := false } := rfl
@[simp] theorem takeUnreadFlag_epoch : (s.takeUnreadFlag).epoch = s.epoch := rfl
@[simp] theorem takeUnreadFlag_input : (s.takeUnreadFlag).input = s.input := rfl
@[simp] theorem takeUnreadFlag_trace : (s.takeUnreadFlag).trace = s.trace := rfl
@[simp] theorem takeUnreadFlag_returned : (s.takeUnreadFlag).returned = s.returned ++ [.unread s.sensor.unread] := rfl
@[simp] theorem takeUnreadFlag_sent : (s.takeUnreadFlag).sent = s.sent := rfl
@[simp] theorem takeUnreadFlag_cell (k : Fin 32) : (s.takeUnreadFlag).cell k = s.cell k := rfl
@[simp] theorem takeUnreadFlag_len : (s.takeUnreadFlag).len = s.len := rfl

@[simp] theorem feed_state (bs : List Byte) : (s.feed bs).state = s.state := rfl
@[simp] theorem feed_cursor (bs : List Byte) : (s.feed bs).cursor = s.cursor := rfl
@[simp] theorem feed_buf (bs : List Byte) : (s.feed bs).buf = s.buf := rfl
@[simp] theorem feed_armed (bs : List Byte) : (s.feed bs).armed = s.armed := rfl
@[simp] theorem feed_sensor (bs : List Byte) : (s.feed bs).sensor = s.sensor := rfl
@[simp] theorem feed_epoch (bs : List Byte) : (s.feed bs).epoch = s.epoch := rfl
@[simp] theorem feed_input (bs : List Byte) : (s.feed bs).input = bs.map Input.byte ++ s.input := rfl
@[simp] theorem feed_trace (bs : List Byte) : (s.feed bs).trace = s.trace := rfl
@[simp] theorem feed_returned (bs : List Byte) : (s.feed bs).returned = s.returned := rfl
@[simp] theorem feed_sent (bs : List Byte) : (s.feed bs).sent = s.sent := rfl
@[simp] theorem feed_cell (bs : List Byte) (k : Fin 32) : (s.feed bs).cell k = s.cell k := rfl
@[simp] theorem feed_len (bs : List Byte) : (s.feed bs).len = s.len := rfl

end Sys2Proof.Machine
end

