-- ==== Sys2Proof/Laws/Memory.lean ====
section
/-! SUPPORT. The buffer: read after write, the canonical form is kept by every operation, cells after each update. -/

namespace Sys2Proof.Machine

open Sys2Proof

theorem cell?_put (m : Memory) (a k : Nat) (b : Byte) (h : Memory.wf m = true) :
    Memory.cell? (Memory.put m a b) k = if a = k then some b else Memory.cell? m k := by
  suffices H : ∀ lo, Memory.wfFrom lo m = true →
      Memory.cell? (Memory.put m a b) k = if a = k then some b else Memory.cell? m k from H 0 h
  clear h
  induction m with
  | nil => intro _ _; simp [Memory.put, Memory.cell?]
  | cons c rest ih =>
    obtain ⟨k', v⟩ := c
    intro lo h
    simp only [Memory.wfFrom, Bool.and_eq_true, decide_eq_true_eq] at h
    simp only [Memory.put]
    split
    · rename_i hlt
      simp [Memory.cell?]
    · split
      · rename_i _ he
        subst he
        simp only [Memory.cell?]
        split <;> rfl
      · rename_i hlt hne
        simp only [Memory.cell?]
        split
        · rename_i he
          subst he
          simp [hne]
        · exact ih _ h.2

/-- Read after write on the same cell, and every other cell alone, whatever the list's form. -/
theorem cell?_put_same (m : Memory) (a : Nat) (b : Byte) : Memory.cell? (Memory.put m a b) a = some b := by
  induction m with
  | nil => simp [Memory.put, Memory.cell?]
  | cons c rest ih =>
    simp only [Memory.put]
    split
    · simp [Memory.cell?]
    · split
      · simp [Memory.cell?]
      · rename_i hne
        simp [Memory.cell?, Ne.symm hne, ih]

theorem cell?_put_other (m : Memory) (a k : Nat) (b : Byte) (hk : a ≠ k) :
    Memory.cell? (Memory.put m a b) k = Memory.cell? m k := by
  induction m with
  | nil => simp [Memory.put, Memory.cell?, hk]
  | cons c rest ih =>
    simp only [Memory.put]
    split
    · simp [Memory.cell?, hk]
    · split
      · rename_i he
        subst he
        simp [Memory.cell?, hk]
      · simp only [Memory.cell?, ih]

theorem wfFrom_mono (m : Memory) (lo lo' : Nat) (hle : lo' ≤ lo) (h : Memory.wfFrom lo m = true) :
    Memory.wfFrom lo' m = true := by
  cases m with
  | nil => rfl
  | cons c rest =>
    simp only [Memory.wfFrom, Bool.and_eq_true, decide_eq_true_eq] at h ⊢
    exact ⟨⟨by omega, h.1.2⟩, h.2⟩

theorem wfFrom_put (m : Memory) (lo a : Nat) (b : Byte) (ha : a < 32) (hlo : lo ≤ a) (h : Memory.wfFrom lo m = true) :
    Memory.wfFrom lo (Memory.put m a b) = true := by
  induction m generalizing lo with
  | nil => simp [Memory.put, Memory.wfFrom, ha, hlo]
  | cons c rest ih =>
    simp only [Memory.wfFrom, Bool.and_eq_true, decide_eq_true_eq] at h
    simp only [Memory.put]
    split
    · rename_i hlt
      simp only [Memory.wfFrom, Bool.and_eq_true, decide_eq_true_eq]
      exact ⟨⟨hlo, ha⟩, ⟨⟨by omega, h.1.2⟩, h.2⟩⟩
    · split
      · rename_i he
        subst he
        simp only [Memory.wfFrom, Bool.and_eq_true, decide_eq_true_eq]
        exact ⟨⟨hlo, ha⟩, h.2⟩
      · rename_i hlt hne
        simp only [Memory.wfFrom, Bool.and_eq_true, decide_eq_true_eq]
        exact ⟨h.1, ih _ (by omega) h.2⟩

/-- Writing a cell keeps the canonical form. -/
theorem wf_put (m : Memory) (i : Fin 32) (b : Byte) (h : Memory.wf m = true) :
    Memory.wf (Memory.put m i.val b) = true := wfFrom_put m 0 i.val b i.isLt (Nat.zero_le _) h

/-- The canonical form holds at reset and after a reset. -/
theorem wf_nil : Memory.wf [] = true := rfl

theorem reset_buf_wf : Memory.wf State.reset.buf = true := rfl

/-- A cell that has been written reads as the byte written, whatever `BUF_INIT` is. -/
theorem cell_of_written (s : State) (i : Fin 32) (b : Byte) (h : Memory.cell? s.buf i.val = some b) : s.cell i = b := by
  simp [State.cell, h]

/-- Read after write (R36): the written cell reads as the byte, every other cell as before. -/
@[simp] theorem write_cell (s : State) (i a : Fin 32) (b : Byte) :
    (s.write i b).cell a = if a = i then b else s.cell a := by
  by_cases h : a = i
  · subst h
    simp [State.cell, cell?_put_same]
  · have h' : i.val ≠ a.val := fun e => h (Fin.ext e.symm)
    simp [State.cell, cell?_put_other _ _ _ _ h', h]

@[simp] theorem storeAt_cell (s : State) (i a : Fin 32) (b : Byte) :
    (s.storeAt i b).cell a = if a = i then b else s.cell a := write_cell s i a b

theorem isSome_put (m : Memory) (a k : Nat) (b : Byte) :
    (Memory.cell? (Memory.put m a b) k).isSome = (decide (a = k) || (Memory.cell? m k).isSome) := by
  by_cases h : a = k
  · subst h
    simp [cell?_put_same]
  · simp [cell?_put_other _ _ _ _ h, h]

/-- Placing the bytes of a frame keeps the canonical form. -/
theorem wf_placeFrom (bytes : List Byte) (s : State) (i : Nat) (h : Memory.wf s.buf = true) :
    Memory.wf (s.placeFrom i bytes).buf = true := by
  induction bytes generalizing s i with
  | nil => exact h
  | cons b rest ih =>
    simp only [State.placeFrom]
    split
    · exact ih _ _ (wf_put _ _ _ h)
    · exact h

/-- A snapshot has the 32 cells of the buffer, in order (R93). -/
@[simp] theorem snapshot_length (s : State) : s.snapshot.length = 32 := by simp [State.snapshot]

theorem snapshot_get (s : State) (i : Fin 32) : s.snapshot[i.val]? = some (s.cell i) := by
  simp [State.snapshot]

end Sys2Proof.Machine
end

