-- ==== Sys2Proof/Laws/Ops.lean ====
section
/-! SUPPORT. One lemma for each shared operation that says once everything it can do, and the next state of each
transition: the provers cite these instead of unfolding. -/

namespace Sys2Proof.Machine

open Sys2Proof

@[simp] theorem andThen_next (s : State) (f : State → Result) : andThen (.next s) f = f s := rfl
@[simp] theorem andThen_fault (e : Fault) (f : State → Result) : andThen (.fault e) f = .fault e := rfl
@[simp] theorem andThen_refused (e : Refusal) (f : State → Result) : andThen (.refused e) f = .refused e := rfl

/-- If the composition answers a next state, both parts did. -/
theorem andThen_eq_next {r : Result} {f : State → Result} {t : State} (h : andThen r f = .next t) :
    ∃ u, r = .next u ∧ f u = .next t := by
  cases r with
  | next u => exact ⟨u, rfl, h⟩
  | fault e => simp at h
  | refused e => simp at h

/-- Composition of runs of operations. -/
theorem andThen_assoc (r : Result) (f g : State → Result) :
    andThen (andThen r f) g = andThen r (fun s => andThen (f s) g) := by
  cases r <;> rfl

/-- `store` (R31), below the capacity: the byte goes to the cell at the cursor, the cursor advances. -/
theorem store_next (b : Byte) (s : State) (h : s.cursor.val < 32) :
    store b s = .next ((s.storeAt ⟨s.cursor.val, h⟩ b).setCursor ⟨s.cursor.val + 1, by omega⟩) := by
  simp [store, h]

/-- `store` at the capacity (R34). -/
theorem store_full (b : Byte) (s : State) (h : ¬ s.cursor.val < 32) :
    store b s = .fault (.storeOutOfRange s.cursor.val) := by
  simp [store, h]

/-- Everything `store` can answer. -/
theorem store_cases (b : Byte) (s : State) :
    (∃ h : s.cursor.val < 32,
      store b s = .next ((s.storeAt ⟨s.cursor.val, h⟩ b).setCursor ⟨s.cursor.val + 1, by omega⟩)) ∨
    (s.cursor.val = 32 ∧ store b s = .fault (.storeOutOfRange 32)) := by
  by_cases h : s.cursor.val < 32
  · exact .inl ⟨h, store_next b s h⟩
  · have h32 : s.cursor.val = 32 := by have := s.cursor.isLt; omega
    exact .inr ⟨h32, by rw [store_full b s h, h32]⟩

/-- `receive` while armed: the transition on the disarmed state, then the re-arm (R52). -/
theorem receive_armed (t : State → Result) (s : State) (h : s.armed = true) :
    receive t s = andThen (t s.disarm) (fun u => .next u.rearm) := by
  simp [receive, h]

/-- `receive` while not armed has no step (R170). -/
theorem receive_not_armed (t : State → Result) (s : State) (h : s.armed = false) :
    receive t s = .refused .byteNotArmed := by
  simp [receive, h]

/-- Everything a next state of `receive` says. -/
theorem receive_eq_next {t : State → Result} {s s' : State} (h : receive t s = .next s') :
    s.armed = true ∧ ∃ u, t s.disarm = .next u ∧ s' = u.rearm := by
  cases ha : s.armed with
  | false => rw [receive_not_armed t s ha] at h; cases h
  | true =>
    rw [receive_armed t s ha] at h
    obtain ⟨u, hu, hs⟩ := andThen_eq_next h
    exact ⟨rfl, u, hu, by cases hs; rfl⟩

/-- What the interpreter can do (R112): it always answers a next state, which differs from `s` in the sensor record and in
one `InterpResult` event, and in the event alone when the result is false. -/
theorem interpret_next (s : State) :
    ∃ r ok, interpret s = .next { s with sensor := r, trace := s.trace ++ [.interpResult ok] } ∧
      (ok = false → r = s.sensor) ∧ (ok = true → r.unread = true) := by
  have failed : ∃ r ok, (Host.Outcome.next s.interpretFailed : Result) =
      .next { s with sensor := r, trace := s.trace ++ [.interpResult ok] } ∧
      (ok = false → r = s.sensor) ∧ (ok = true → r.unread = true) :=
    ⟨s.sensor, false, rfl, fun _ => rfl, by simp⟩
  have done : ∀ f : SensorState, ∃ r ok, (Host.Outcome.next (s.interpretOk f) : Result) =
      .next { s with sensor := r, trace := s.trace ++ [.interpResult ok] } ∧
      (ok = false → r = s.sensor) ∧ (ok = true → r.unread = true) :=
    fun f => ⟨{ f with unread := true }, true, rfl, by simp, fun _ => rfl⟩
  unfold interpret
  split
  · unfold execMeasure; split
    · exact failed
    · exact done _
  · exact failed
  · exact failed
  · unfold execResetResponse; split
    · exact failed
    · exact done _
  · unfold execGetFactoryDefaultSettings; split
    · exact failed
    · exact done _
  · unfold execGetProductInfo; split
    · exact failed
    · exact done _
  · exact failed

/-- What a dispatch can do (R93): the event, then the interpreter. -/
theorem dispatch_next (e : Bool) (s : State) :
    ∃ r ok, dispatch e s = .next { s with
        sensor := r
        trace := s.trace ++ [.dispatch s.cursor.val s.snapshot e, .interpResult ok] } ∧
      (ok = false → r = s.sensor) ∧ (ok = true → r.unread = true) := by
  obtain ⟨r, ok, h, hr⟩ := interpret_next (s.emit (.dispatch s.cursor.val s.snapshot e))
  refine ⟨r, ok, ?_, hr⟩
  simp only [dispatch, h, emit_trace, List.append_assoc, List.cons_append, List.nil_append]
  rfl

variable (s : State)

theorem execH1Match_next (h : s.armed = true) :
    execH1Match s = .next (((s.disarm.storeAt 0 Config.header1).setCursor 1).goto .awaitingHeader2).rearm := by
  rw [execH1Match, receive_armed _ _ h]; rfl

theorem execH1Ignore_next (b : Byte) (h : s.armed = true) :
    execH1Ignore b s = .next (s.disarm.emit (.ignored b)).rearm := by
  rw [execH1Ignore, receive_armed _ _ h]; rfl

theorem execH2Match_next (h : s.armed = true) :
    execH2Match s = .next (((s.disarm.storeAt 1 Config.header2).setCursor 2).goto .awaitingCommand).rearm := by
  rw [execH2Match, receive_armed _ _ h]; rfl

theorem execH2Resync_next (b : Byte) (h : s.armed = true) :
    execH2Resync b s = .next (s.disarm.resync .badHeader2).rearm := by
  rw [execH2Resync, receive_armed _ _ h]; rfl

/-- The state after the disarm and the store at the cursor: what T5 to T11 go on from. -/
def stored (s : State) (b : Byte) (h : s.cursor.val < 32) : State :=
  (s.disarm.storeAt ⟨s.cursor.val, h⟩ b).setCursor ⟨s.cursor.val + 1, by omega⟩

theorem store_disarm (b : Byte) (hc : s.cursor.val < 32) : store b s.disarm = .next (stored s b hc) :=
  store_next b s.disarm hc

theorem execCmdStore_next (b : Byte) (h : s.armed = true) (hc : s.cursor.val < 32) :
    execCmdStore b s = .next ((stored s b hc).goto .awaitingLength).rearm := by
  simp only [execCmdStore, receive_armed _ _ h, store_disarm s b hc, andThen_next]

theorem execLenPayload_next (b : Byte) (h : s.armed = true) (hc : s.cursor.val < 32) :
    execLenPayload b s = .next ((stored s b hc).goto .awaitingPayload).rearm := by
  simp only [execLenPayload, receive_armed _ _ h, store_disarm s b hc, andThen_next]

theorem execLenEmpty_next (h : s.armed = true) (hc : s.cursor.val < 32) :
    execLenEmpty s = .next ((stored s 0 hc).goto .awaitingEnd).rearm := by
  simp only [execLenEmpty, receive_armed _ _ h, store_disarm s 0 hc, andThen_next]

theorem execLenReject_next (b : Byte) (h : s.armed = true) (hc : s.cursor.val < 32) :
    execLenReject b s = .next ((stored s b hc).resync .oversizeLength).rearm := by
  simp only [execLenReject, receive_armed _ _ h, store_disarm s b hc, andThen_next]

theorem execPayMore_next (b : Byte) (h : s.armed = true) (hc : s.cursor.val < 32) :
    execPayMore b s = .next (stored s b hc).rearm := by
  simp only [execPayMore, receive_armed _ _ h, store_disarm s b hc, andThen_next]

theorem execPayLast_next (b : Byte) (h : s.armed = true) (hc : s.cursor.val < 32) :
    execPayLast b s = .next ((stored s b hc).goto .awaitingEnd).rearm := by
  simp only [execPayLast, receive_armed _ _ h, store_disarm s b hc, andThen_next]

/-- T11 is the store, the dispatch event, the interpreter, the clear and the re-arm, in that order (R39, R92). -/
theorem execEndDispatch_eq (b : Byte) (h : s.armed = true) (hc : s.cursor.val < 32) :
    execEndDispatch b s = andThen (dispatch (endOK b) (stored s b hc)) (fun u => .next u.clear.rearm) := by
  simp only [execEndDispatch, receive_armed _ _ h, store_disarm s b hc, andThen_next, andThen_assoc]

/-- Everything T11 can do to the state. -/
theorem execEndDispatch_next (b : Byte) (h : s.armed = true) (hc : s.cursor.val < 32) :
    ∃ r ok, execEndDispatch b s = .next { s with
        state := .awaitingHeader1
        cursor := 0
        buf := Memory.put s.buf s.cursor.val b
        sensor := r
        trace := s.trace ++ [.stored ⟨s.cursor.val, hc⟩ b,
          .dispatch (s.cursor.val + 1) (stored s b hc).snapshot (endOK b), .interpResult ok, .rearm] } ∧
      (ok = false → r = s.sensor) ∧ (ok = true → r.unread = true) := by
  obtain ⟨r, ok, hd, hr⟩ := dispatch_next (endOK b) (stored s b hc)
  refine ⟨r, ok, ?_, hr⟩
  rw [execEndDispatch_eq s b h hc, hd]
  simp [stored, State.clear, State.rearm, State.emit, State.goto, State.setCursor, State.storeAt, State.write,
    State.disarm, h]

end Sys2Proof.Machine
end

