-- ==== Sys2Proof/Laws/Decode.lean ====
section
/-! SUPPORT. The decoder's and the encoder's parts: what the condition bits say on numbers, the command codes, the bytes
of a `STEP` word, and the moves of `step`. -/

namespace Sys2Proof.Machine

open Sys2Proof

/-- The length condition on numbers: no wrap for any byte (R56, R101, R171). -/
theorem lengthOK_iff (l : Byte) : lengthOK l = true ↔ l.toNat ≤ 27 := by
  have h : lengthOK l = decide (l.toNat + (4 + 1) ≤ 32) := rfl
  rw [h, decide_eq_true_eq]
  omega

theorem header1OK_iff (b : Byte) : header1OK b = true ↔ b = Config.header1 := by simp [header1OK]

theorem header2OK_iff (b : Byte) : header2OK b = true ↔ b = Config.header2 := by simp [header2OK]

theorem endOK_iff (b : Byte) : endOK b = true ↔ b = Config.endMarker := by simp [endOK]

theorem commandOfCode_code (c : Command) : commandOfCode (commandCode c) = some c := by
  cases c <;> decide

theorem code_of_commandOfCode {b : Byte} {c : Command} (h : commandOfCode b = some c) : commandCode c = b := by
  revert h
  unfold commandOfCode
  repeat' split
  all_goals intro h; first | (cases h; subst_vars; rfl) | cases h

theorem toNat_stepWord (st : ParserState) (b : Byte) : (stepWord st b).toNat = (stateCode st).toNat * 256 + b.toNat := by
  have hb : b.toNat < 2 ^ 8 := b.isLt
  rw [stepWord, BitVec.toNat_append, ← Nat.shiftLeft_add_eq_or_of_lt hb, Nat.shiftLeft_eq]

/-- The two bytes of a `STEP` word are the state code and the byte. -/
theorem encodeStep_eq (st : ParserState) (b : Byte) :
    encodeStep st b = [BitVec.ofNat 8 (stateCode st).toNat, b] := by
  have hw := toNat_stepWord st b
  have hb : b.toNat < 256 := b.isLt
  have hs : (stateCode st).toNat < 8 := (stateCode st).isLt
  unfold encodeStep stepWordBytes
  congr 1
  · apply BitVec.eq_of_toNat_eq
    simp only [BitVec.toNat_setWidth, BitVec.extractLsb'_toNat, BitVec.toNat_ofNat, hw, Nat.shiftRight_eq_div_pow]
    omega
  · congr 1
    apply BitVec.eq_of_toNat_eq
    simp only [BitVec.extractLsb'_toNat, hw, Nat.shiftRight_zero]
    omega

theorem stateOfCode_code (st : ParserState) : stateOfCode (BitVec.ofNat 8 (stateCode st).toNat).toNat = some st := by
  cases st <;> rfl

theorem code_of_stateOfCode {n : Nat} {st : ParserState} (h : stateOfCode n = some st) : n = (stateCode st).toNat := by
  unfold stateOfCode at h
  split at h <;> first | (cases h; rfl) | cases h

/-- A `STEP` word decodes to the transition that its state, its byte, the cursor and `L` select (R51, R52, R61). -/
theorem decode_encodeStep (st : ParserState) (b : Byte) (cursor : Nat) (l : Byte) :
    decode cursor l (encodeStep st b) = .ok (selectTransition st b cursor l) := by
  rw [encodeStep_eq]
  simp only [decode, stateOfCode_code]

/-- What a step does with each input. -/
theorem step_offer_byte (s : State) (b : Byte) : step (s.offer (.byte b)) = exec (s.fetched b) s := rfl
theorem step_offer_resetAssert (s : State) : step (s.offer .resetAssert) = .next s.applyReset := rfl
theorem step_offer_resetRelease (s : State) : step (s.offer .resetRelease) = .next s.boot := rfl
theorem step_offer_send (s : State) (c : Command) : step (s.offer (.send c)) = exec (.req c) s := rfl
theorem step_offer_read (s : State) (f : Accessor) : step (s.offer (.read f)) = .next (s.access f) := rfl
theorem step_offer_takeUnread (s : State) : step (s.offer .takeUnread) = .next s.takeUnreadFlag := rfl

/-- Every state is idle or is a state to which its first input was offered. -/
theorem offered (s : State) : s.input = [] ∨ ∃ (u : State) (x : Input), s = u.offer x := by
  obtain ⟨st, cu, bf, ar, se, ep, inp, tr, re, sn⟩ := s
  cases inp with
  | nil => exact .inl rfl
  | cons x rest => exact .inr ⟨⟨st, cu, bf, ar, se, ep, rest, tr, re, sn⟩, x, rfl⟩

theorem step_idle (s : State) (h : s.input = []) : step s = .next s := by simp [step, h]

theorem feed_cons (s : State) (b : Byte) (bs : List Byte) : s.feed (b :: bs) = (s.feed bs).offer (.byte b) := rfl

@[simp] theorem feed_nil (s : State) : s.feed [] = s := rfl

@[simp] theorem runSteps_zero (s : State) : runSteps 0 s = .next s := rfl

theorem runSteps_succ (k : Nat) (s : State) : runSteps (k + 1) s = andThen (step s) (runSteps k) := rfl

theorem runSteps_add (j k : Nat) (s : State) : runSteps (j + k) s = andThen (runSteps j s) (runSteps k) := by
  induction j generalizing s with
  | zero => simp
  | succ j ih =>
    rw [Nat.succ_add, runSteps_succ, runSteps_succ]
    cases step s with
    | next t => simpa using ih t
    | fault e => rfl
    | refused e => rfl

end Sys2Proof.Machine
end

