-- ==== Sys2Proof/Laws/PerInstr.lean ====
section
/-! SUPPORT. Families of facts about every instruction as syntax, one lemma for each constructor of Instr. -/

namespace Sys2Proof.Laws.WordLength

open Sys2Proof

/-- How many bytes the words of an instruction's format have (R61): two for `STEP`, one for `FRAME_CMD`, five for
`REQ_FRAME`. -/
def formatBytes (i : Instr) : Nat :=
  match i with
  | .measure => 1
  | .crosstalkCorrection => 1
  | .offsetCorrection => 1
  | .reset => 1
  | .getFactoryDefaultSettings => 1
  | .getProductInfo => 1
  | .otherCommand _ => 1
  | .req _ => 5
  | _ => 2

/-- The encoder's word has the length of the instruction's format. -/
def Statement (i : Instr) : Prop := (encode i).length = formatBytes i

theorem h1Match : Statement .h1Match := rfl
theorem h1Ignore (b : Byte) : Statement (.h1Ignore b) := rfl
theorem h2Match : Statement .h2Match := rfl
theorem h2Resync (b : Byte) : Statement (.h2Resync b) := rfl
theorem cmdStore (b : Byte) : Statement (.cmdStore b) := rfl
theorem lenPayload (b : Byte) : Statement (.lenPayload b) := rfl
theorem lenEmpty : Statement .lenEmpty := rfl
theorem lenReject (b : Byte) : Statement (.lenReject b) := rfl
theorem payMore (b : Byte) : Statement (.payMore b) := rfl
theorem payLast (b : Byte) : Statement (.payLast b) := rfl
theorem endDispatch (b : Byte) : Statement (.endDispatch b) := rfl
theorem measure : Statement .measure := rfl
theorem crosstalkCorrection : Statement .crosstalkCorrection := rfl
theorem offsetCorrection : Statement .offsetCorrection := rfl
theorem reset : Statement .reset := rfl
theorem getFactoryDefaultSettings : Statement .getFactoryDefaultSettings := rfl
theorem getProductInfo : Statement .getProductInfo := rfl
theorem otherCommand (c : Byte) : Statement (.otherCommand c) := rfl
theorem req (c : Command) : Statement (.req c) := rfl

end Sys2Proof.Laws.WordLength
end

