-- ==== Sys2Proof/Laws/Step.lean ====
section
/-! SUPPORT. What one step can do, said once: the cases of a byte's step, and the moves of every other input. The claims
about all steps are case analyses of these. -/

namespace Sys2Proof.Machine

open Sys2Proof

/-- The cursor of a state of the invariant: 32 is never observed between steps (R13). -/
theorem State.Inv.cursor_le {s : State} (h : s.Inv) : s.cursor.val ≤ 31 := by
  have := h.tied
  unfold State.Tied at this
  split at this <;> omega

/-- The machine as the interpreter finds it inside T11 (R93): trailer stored, cursor advanced, `Dispatch` emitted. -/
def atDispatch (s : State) (b : Byte) (hc : s.cursor.val < 32) : State :=
  (stored s b hc).emit (.dispatch (s.cursor.val + 1) (stored s b hc).snapshot (endOK b))

/-- The state after T11 when the interpreter left the record `r` and answered `ok` (R92). -/
def afterDispatch (s : State) (b : Byte) (hc : s.cursor.val < 32) (r : SensorState) (ok : Bool) : State :=
  { s with
    state := .awaitingHeader1
    cursor := 0
    buf := Memory.put s.buf s.cursor.val b
    sensor := r
    trace := s.trace ++ [.stored ⟨s.cursor.val, hc⟩ b,
      .dispatch (s.cursor.val + 1) (stored s b hc).snapshot (endOK b), .interpResult ok, .rearm] }

/-- Everything the step of byte `b` can do to an armed state `s`: one case for each transition. -/
inductive ByteStep (s : State) (b : Byte) (t : State) : Prop
  | h1Match (hs : s.state = .awaitingHeader1) (hb : b = Config.header1)
      (ht : t = (((s.disarm.storeAt 0 Config.header1).setCursor 1).goto .awaitingHeader2).rearm)
  | h1Ignore (hs : s.state = .awaitingHeader1) (hb : b ≠ Config.header1) (ht : t = (s.disarm.emit (.ignored b)).rearm)
  | h2Match (hs : s.state = .awaitingHeader2) (hb : b = Config.header2)
      (ht : t = (((s.disarm.storeAt 1 Config.header2).setCursor 2).goto .awaitingCommand).rearm)
  | h2Resync (hs : s.state = .awaitingHeader2) (hb : b ≠ Config.header2) (ht : t = (s.disarm.resync .badHeader2).rearm)
  | cmdStore (hs : s.state = .awaitingCommand) (hc : s.cursor.val < 32)
      (ht : t = ((stored s b hc).goto .awaitingLength).rearm)
  | lenPayload (hs : s.state = .awaitingLength) (hb : 1 ≤ b.toNat ∧ b.toNat ≤ 27) (hc : s.cursor.val < 32)
      (ht : t = ((stored s b hc).goto .awaitingPayload).rearm)
  | lenEmpty (hs : s.state = .awaitingLength) (hb : b = 0) (hc : s.cursor.val < 32)
      (ht : t = ((stored s b hc).goto .awaitingEnd).rearm)
  | lenReject (hs : s.state = .awaitingLength) (hb : 28 ≤ b.toNat) (hc : s.cursor.val < 32)
      (ht : t = ((stored s b hc).resync .oversizeLength).rearm)
  | payMore (hs : s.state = .awaitingPayload) (hl : s.cursor.val + 1 ≠ 4 + s.len.toNat) (hc : s.cursor.val < 32)
      (ht : t = (stored s b hc).rearm)
  | payLast (hs : s.state = .awaitingPayload) (hl : s.cursor.val + 1 = 4 + s.len.toNat) (hc : s.cursor.val < 32)
      (ht : t = ((stored s b hc).goto .awaitingEnd).rearm)
  | endDispatch (hs : s.state = .awaitingEnd) (hc : s.cursor.val < 32) (r : SensorState) (ok : Bool)
      (hfail : ok = false → r = s.sensor) (hdone : ok = true → r.unread = true)
      (hi : interpret (atDispatch s b hc) = .next { atDispatch s b hc with
        sensor := r, trace := (atDispatch s b hc).trace ++ [.interpResult ok] })
      (ht : t = afterDispatch s b hc r ok)

/-- An armed machine has a step for every byte where the transition has a cell to store to. -/
theorem byteStep_exists (s : State) (b : Byte) (ha : s.armed = true) (hc : s.state = .awaitingHeader1 ∨ s.state = .awaitingHeader2 ∨ s.cursor.val < 32) :
    ∃ t, step (s.offer (.byte b)) = .next t ∧ ByteStep s b t := by
  rw [step_offer_byte]
  unfold State.fetched
  cases hs : s.state with
  | awaitingHeader1 =>
    simp only [selectTransition]
    split
    · rename_i h; rw [header1OK_iff] at h; exact ⟨_, execH1Match_next s ha, .h1Match hs h rfl⟩
    · rename_i h; rw [header1OK_iff] at h; exact ⟨_, execH1Ignore_next s b ha, .h1Ignore hs h rfl⟩
  | awaitingHeader2 =>
    simp only [selectTransition]
    split
    · rename_i h; rw [header2OK_iff] at h; exact ⟨_, execH2Match_next s ha, .h2Match hs h rfl⟩
    · rename_i h; rw [header2OK_iff] at h; exact ⟨_, execH2Resync_next s b ha, .h2Resync hs h rfl⟩
  | awaitingCommand =>
    have hc : s.cursor.val < 32 := by simpa [hs] using hc
    exact ⟨_, execCmdStore_next s b ha hc, .cmdStore hs hc rfl⟩
  | awaitingLength =>
    have hc : s.cursor.val < 32 := by simpa [hs] using hc
    simp only [selectTransition]
    split
    · rename_i h; subst h; exact ⟨_, execLenEmpty_next s ha hc, .lenEmpty hs rfl hc rfl⟩
    · rename_i h0
      have : b.toNat ≠ 0 := fun h => h0 (BitVec.eq_of_toNat_eq h)
      split
      · rename_i h; rw [lengthOK_iff] at h; exact ⟨_, execLenPayload_next s b ha hc, .lenPayload hs ⟨by omega, h⟩ hc rfl⟩
      · rename_i h; rw [lengthOK_iff] at h; exact ⟨_, execLenReject_next s b ha hc, .lenReject hs (by omega) hc rfl⟩
  | awaitingPayload =>
    have hc : s.cursor.val < 32 := by simpa [hs] using hc
    by_cases h : s.cursor.val + 1 = Config.hdrLen + s.len.toNat
    · simp only [selectTransition, if_pos h]; exact ⟨_, execPayLast_next s b ha hc, .payLast hs h hc rfl⟩
    · simp only [selectTransition, if_neg h]; exact ⟨_, execPayMore_next s b ha hc, .payMore hs h hc rfl⟩
  | awaitingEnd =>
    have hc : s.cursor.val < 32 := by simpa [hs] using hc
    obtain ⟨r, ok, hu, h0, h1⟩ := interpret_next (atDispatch s b hc)
    refine ⟨_, ?_, .endDispatch hs hc r ok h0 h1 hu rfl⟩
    show execEndDispatch b s = _
    rw [execEndDispatch_eq s b ha hc]
    show andThen (interpret (atDispatch s b hc)) _ = _
    rw [hu]
    simp [atDispatch, afterDispatch, stored, State.clear, State.rearm, State.emit, State.goto, State.setCursor,
      State.storeAt, State.write, State.disarm, ha]

/-- Whatever transition a byte selects, its meaning is one step around it: `armed <- 0` first, the re-arm last (R52). -/
theorem exec_fetched_receive (s : State) (b : Byte) : ∃ f, exec (s.fetched b) s = receive f s := by
  unfold State.fetched selectTransition
  split <;> (repeat' split) <;>
    simp only [exec, execH1Match, execH1Ignore, execH2Match, execH2Resync, execCmdStore, execLenPayload, execLenEmpty,
      execLenReject, execPayMore, execPayLast, execEndDispatch] <;>
    exact ⟨_, rfl⟩

/-- Everything a next state of a byte's step says. -/
theorem byteStep_of_next (s t : State) (b : Byte) (h : step (s.offer (.byte b)) = .next t) : s.armed = true ∧ ByteStep s b t := by
  have ha : s.armed = true := by
    rw [step_offer_byte] at h
    obtain ⟨f, hf⟩ := exec_fetched_receive s b
    rw [hf] at h
    exact (receive_eq_next h).1
  refine ⟨ha, ?_⟩
  by_cases hc : s.state = .awaitingHeader1 ∨ s.state = .awaitingHeader2 ∨ s.cursor.val < 32
  · obtain ⟨u, hu, hb⟩ := byteStep_exists s b ha hc
    rw [hu] at h; cases h; exact hb
  · exfalso
    simp only [not_or] at hc
    obtain ⟨h1, h2, h3⟩ := hc
    rw [step_offer_byte] at h
    unfold State.fetched selectTransition at h
    have hf := fun b => store_full b s.disarm h3
    split at h
    · contradiction
    · contradiction
    · simp [exec, execCmdStore, receive_armed _ _ ha, hf] at h
    · (repeat' split at h) <;> simp [exec, execLenEmpty, execLenReject, execLenPayload, receive_armed _ _ ha, hf] at h
    · (repeat' split at h) <;> simp [exec, execPayMore, execPayLast, receive_armed _ _ ha, hf] at h
    · simp [exec, execEndDispatch, receive_armed _ _ ha, hf] at h

/-- Everything a next state of any step says: idle, or one of the six inputs. -/
theorem step_cases {s t : State} (h : step s = .next t) :
    (s.input = [] ∧ t = s) ∨
    ∃ u : State,
      (∃ b, s = u.offer (.byte b) ∧ u.armed = true ∧ ByteStep u b t) ∨
      (s = u.offer .resetAssert ∧ t = u.applyReset) ∨
      (s = u.offer .resetRelease ∧ t = u.boot) ∨
      (∃ c, s = u.offer (.send c) ∧ t = { u with sent := u.sent ++ [requestFrame c] }) ∨
      (∃ f, s = u.offer (.read f) ∧ t = u.access f) ∨
      (s = u.offer .takeUnread ∧ t = u.takeUnreadFlag) := by
  rcases offered s with hi | ⟨u, x, rfl⟩
  · rw [step_idle s hi] at h; cases h; exact .inl ⟨hi, rfl⟩
  · refine .inr ⟨u, ?_⟩
    cases x with
    | byte b => exact .inl ⟨b, rfl, byteStep_of_next u t b h⟩
    | resetAssert => cases h; exact .inr (.inl ⟨rfl, rfl⟩)
    | resetRelease => cases h; exact .inr (.inr (.inl ⟨rfl, rfl⟩))
    | send c => cases h; exact .inr (.inr (.inr (.inl ⟨c, rfl, rfl⟩)))
    | read f => cases h; exact .inr (.inr (.inr (.inr (.inl ⟨f, rfl, rfl⟩))))
    | takeUnread => cases h; exact .inr (.inr (.inr (.inr (.inr ⟨rfl, rfl⟩))))

end Sys2Proof.Machine
end

