-- ==== Sys2Proof/Tests/Slice0.lean ====
section
/-! SUPPORT. Tests with expected values from the spec (spec/opcode_table.json, spec/95_test_vectors.md), and for every
statement with hypotheses a concrete state and operands that meet them all. -/

namespace Sys2Proof.Tests

open Sys2Proof Sys2Proof.Machine

/-- A field of the next state, if there is one. -/
def got {α : Type} (r : Result) (f : State → α) : Option α :=
  match r with
  | .next t => some (f t)
  | .fault _ => none
  | .refused _ => none

/-- The machine after reset with the given frame bytes received, in parser state `st`. -/
def mid (st : ParserState) (bytes : List Byte) : State := State.reset.midFrame st bytes

/-- What the vectors of section 2.1 list: end state, cursor, events. -/
def seen (t : State) : ParserState × Nat × List Event := (t.state, t.cursor.val, t.trace)

/-- The step of byte `b`. -/
def onByte (s : State) (b : Byte) : Result := step (s.offer (.byte b))

/-! ### WellFormed: one ill-formed term for each check -/

theorem test_wellFormed_h1Ignore : (Instr.h1Ignore 0x55).wellFormed = false := by decide
theorem test_wellFormed_h2Resync : (Instr.h2Resync 0xAA).wellFormed = false := by decide
theorem test_wellFormed_lenPayload_zero : (Instr.lenPayload 0).wellFormed = false := by decide
theorem test_wellFormed_lenPayload_28 : (Instr.lenPayload 28).wellFormed = false := by decide
theorem test_wellFormed_lenReject_27 : (Instr.lenReject 27).wellFormed = false := by decide
theorem test_wellFormed_otherCommand_81 : (Instr.otherCommand 0x81).wellFormed = false := by decide
theorem test_wellFormed_otherCommand_86 : (Instr.otherCommand 0x86).wellFormed = false := by decide
theorem test_wellFormed_boundaries :
    (Instr.lenPayload 1).wellFormed ∧ (Instr.lenPayload 27).wellFormed ∧ (Instr.lenReject 28).wellFormed ∧
      (Instr.lenReject 255).wellFormed ∧ (Instr.otherCommand 0x87).wellFormed := by decide

/-! ### Decode: a word of every row, written out from the table's "encoding" -/

theorem test_decode_h1Match : decodeTableWord 16 0b00001010101 = some .h1Match := by decide
theorem test_decode_h1Ignore : decodeTableWord 16 0b00000010010 = some (.h1Ignore 0x12) := by decide
theorem test_decode_h2Match : decodeTableWord 16 0b00110101010 = some .h2Match := by decide
theorem test_decode_h2Resync : decodeTableWord 16 0b00110101011 = some (.h2Resync 0xAB) := by decide
theorem test_decode_cmdStore : decodeTableWord 16 0b01010000001 = some (.cmdStore 0x81) := by decide
theorem test_decode_lenPayload : decodeTableWord 16 0b01100011011 = some (.lenPayload 0x1B) := by decide
theorem test_decode_lenEmpty : decodeTableWord 16 0b01100000000 = some .lenEmpty := by decide
theorem test_decode_lenReject : decodeTableWord 16 0b01111111011 = some (.lenReject 0xFB) := by decide
theorem test_decode_payMore : decode 4 3 [0b100, 0b01111111] = .ok (.payMore 0x7F) := by decide
theorem test_decode_payLast : decode 6 3 [0b100, 0b01010101] = .ok (.payLast 0x55) := by decide
theorem test_decode_payLast_27 : decode 30 27 [0b100, 0b00000000] = .ok (.payLast 0) := by decide
theorem test_decode_endDispatch : decodeTableWord 16 0b10111111010 = some (.endDispatch 0xFA) := by decide
theorem test_decode_measure : decodeTableWord 8 0b10000001 = some .measure := by decide
theorem test_decode_crosstalk : decodeTableWord 8 0b10000010 = some .crosstalkCorrection := by decide
theorem test_decode_offset : decodeTableWord 8 0b10000011 = some .offsetCorrection := by decide
theorem test_decode_reset : decodeTableWord 8 0b10000100 = some .reset := by decide
theorem test_decode_factory : decodeTableWord 8 0b10000101 = some .getFactoryDefaultSettings := by decide
theorem test_decode_productInfo : decodeTableWord 8 0b10000110 = some .getProductInfo := by decide
theorem test_decode_otherCommand : decodeTableWord 8 0b01010101 = some (.otherCommand 0x55) := by decide
theorem test_decode_req :
    decodeTableWord 40 0b0101010110101010100001010000000011111010 = some (.req .getFactoryDefaultSettings) := by decide
theorem test_decode_state_6 : decode 0 0 [0b110, 0x00] = .error (.noSuchState 6) := by decide
theorem test_decode_state_7 : decode 0 0 [0b111, 0xFF] = .error (.noSuchState 7) := by decide
theorem test_decode_req_80 : decode 0 0 [0x55, 0xAA, 0x80, 0x00, 0xFA] = .error (.noSuchCommand 0x80) := by decide
theorem test_decode_req_trailer : decode 0 0 [0x55, 0xAA, 0x81, 0x00, 0xFB] = .error .notARequest := by decide
theorem test_decode_no_format : decode 0 0 [0x55, 0xAA, 0x81] = .error (.noSuchFormat 3) := by decide

/-- S1: the encoder's output for Measure. -/
theorem test_encode_request : encode (.req .measure) = [0x55, 0xAA, 0x81, 0x00, 0xFA] := by decide

/-! ### The transitions: vectors V1 to V16b -/

theorem test_V1 : got (onByte (mid .awaitingHeader1 []) 0x55) seen =
    some (.awaitingHeader2, 1, [.stored 0 0x55, .rearm]) := by decide
theorem test_V2b : got (onByte (mid .awaitingHeader1 []) 0xAA) seen =
    some (.awaitingHeader1, 0, [.ignored 0xAA, .rearm]) := by decide
theorem test_V3 : got (onByte (mid .awaitingHeader2 [0x55]) 0xAA) seen =
    some (.awaitingCommand, 2, [.stored 1 0xAA, .rearm]) := by decide
theorem test_V5 : got (onByte (mid .awaitingHeader2 [0x55]) 0x55) seen =
    some (.awaitingHeader1, 0, [.resync .badHeader2, .rearm]) := by decide
theorem test_V6c : got (onByte (mid .awaitingCommand [0x55, 0xAA]) 0x55) seen =
    some (.awaitingLength, 3, [.stored 2 0x55, .rearm]) := by decide
theorem test_V8 : got (onByte (mid .awaitingLength [0x55, 0xAA, 0x81]) 0x1B) seen =
    some (.awaitingPayload, 4, [.stored 3 0x1B, .rearm]) := by decide
theorem test_V9 : got (onByte (mid .awaitingLength [0x55, 0xAA, 0x81]) 0x00) seen =
    some (.awaitingEnd, 4, [.stored 3 0x00, .rearm]) := by decide
theorem test_V10 : got (onByte (mid .awaitingLength [0x55, 0xAA, 0x81]) 0x1C) seen =
    some (.awaitingHeader1, 0, [.stored 3 0x1C, .resync .oversizeLength, .rearm]) := by decide
theorem test_V11 : got (onByte (mid .awaitingLength [0x55, 0xAA, 0x81]) 0xFB) seen =
    some (.awaitingHeader1, 0, [.stored 3 0xFB, .resync .oversizeLength, .rearm]) := by decide
theorem test_V13 : got (onByte (mid .awaitingPayload [0x55, 0xAA, 0x81, 0x03]) 0x7F) seen =
    some (.awaitingPayload, 5, [.stored 4 0x7F, .rearm]) := by decide
theorem test_V14a : got (onByte (mid .awaitingPayload [0x55, 0xAA, 0x81, 0x03, 0x00, 0x64]) 0x55) seen =
    some (.awaitingEnd, 7, [.stored 6 0x55, .rearm]) := by decide
theorem test_V14c : got (onByte (mid .awaitingPayload ([0x55, 0xAA, 0x81, 0x1B] ++ List.replicate 26 0x01)) 0x00) seen =
    some (.awaitingEnd, 31, [.stored 30 0x00, .rearm]) := by decide
theorem test_V15 : got (onByte (mid .awaitingEnd [0x55, 0xAA, 0x81, 0x03, 0x00, 0x64, 0x00]) 0xFA)
    (fun t => (t.cursor.val, dispPort t.trace, t.sensor.distance, t.sensor.unread)) =
    some (0, some (8, true), 100, true) := by decide
theorem test_V16 : got (onByte (mid .awaitingEnd [0x55, 0xAA, 0x81, 0x03, 0x00, 0x64, 0x00]) 0x00)
    (fun t => (t.state, dispPort t.trace, t.sensor.distance, t.sensor.unread)) =
    some (.awaitingHeader1, some (8, false), 100, true) := by decide

/-! ### The interpreter's rows, at the trailer of the spec's frames -/

/-- V24's first frame. -/
theorem test_measure : got (exec .measure (mid .awaitingEnd [0x55, 0xAA, 0x81, 0x03, 0x01, 0x2C, 0x08]))
    (fun t => (t.sensor.distance, t.sensor.errorCode, t.trace)) = some (300, 0x08, [.interpResult true]) := by decide
/-- V22 with command byte 0x82. -/
theorem test_crosstalk : got (exec .crosstalkCorrection (mid .awaitingEnd [0x55, 0xAA, 0x82, 0x01, 0x01]))
    (fun t => (t.sensor, t.trace)) = some (SensorState.initial, [.interpResult false]) := by decide
/-- V22 with command byte 0x83. -/
theorem test_offset : got (exec .offsetCorrection (mid .awaitingEnd [0x55, 0xAA, 0x83, 0x01, 0x01]))
    (fun t => (t.sensor, t.trace)) = some (SensorState.initial, [.interpResult false]) := by decide
/-- V25. -/
theorem test_resetResponse : got (exec .reset (mid .awaitingEnd [0x55, 0xAA, 0x84, 0x00])) (fun t => (t.sensor, t.trace)) =
    some ({ SensorState.initial with unread := true }, [.interpResult true]) := by decide
/-- V27. -/
theorem test_factory : got (exec .getFactoryDefaultSettings
      (mid .awaitingEnd [0x55, 0xAA, 0x85, 0x07, 0x11, 0x22, 0x33, 0x44, 0x01, 0x02, 0x03])) (fun t => t.sensor) =
    some { SensorState.initial with
      offset0 := 0x11, offset1 := 0x22, offset2 := 0x33, offset3 := 0x44,
      crosstalk := 258, calibration := 0x03, unread := true } := by decide
/-- S3. -/
theorem test_productInfo : got (exec .getProductInfo (mid .awaitingEnd [0x55, 0xAA, 0x86, 0x03, 0x02, 0x49, 0x10]))
    (fun t => t.sensor) =
    some { SensorState.initial with productType := 0x02, portMode := 0x49, firmware := 0x10, unread := true } := by decide
/-- V21, step 9. -/
theorem test_otherCommand : got (exec (.otherCommand 0x10) (mid .awaitingEnd [0x55, 0xAA, 0x10, 0x04, 0x55, 0xAA, 0x81, 0x03]))
    (fun t => (t.sensor, t.trace)) = some (SensorState.initial, [.interpResult false]) := by decide
/-- S1, handed to the Transport. -/
theorem test_req : got (exec (.req .measure) State.reset) (fun t => t.sent) =
    some [[0x55, 0xAA, 0x81, 0x00, 0xFA]] := by decide
/-- V26: the flag before any byte. -/
theorem test_takeUnread_clear : got (step (State.reset.offer .takeUnread)) (fun t => t.returned) =
    some [.unread false] := by decide

/-! ### Reset, and table words run as the first instruction -/

theorem test_reset_memory : Memory.wf State.reset.buf = true := by decide
theorem test_placed_memory :
    Memory.wf (State.reset.withFetchWord 16 0x555).buf = true ∧ Memory.wf (State.reset.withFetchWord 8 0x85).buf = true := by
  decide
theorem test_fetch_step : got (step (State.reset.withFetchWord 16 0x31B)) seen =
    some (.awaitingPayload, 4, [.stored 3 0x1B, .rearm]) := by decide
theorem test_fetch_command : got (step (State.reset.withFetchWord 8 0x85))
    (fun t => (dispPort t.trace, t.sensor.unread)) = some (some (12, true), true) := by decide
theorem test_fetch_request : got (step (State.reset.withFetchWord 40 0x55AA8600FA)) (fun t => t.sent) =
    some [[0x55, 0xAA, 0x86, 0x00, 0xFA]] := by decide

/-! ### Witnesses: states of the invariant, at every parser state and at the ends of the ranges -/

/-- The invariant of a state given its four parts, so that each witness is a decision on numerals. -/
theorem inv_of (s : State) (hm : Memory.wf s.buf = true) (ht : s.Tied)
    (hw : ∀ i : Fin 32, i.val < s.cursor.val → (Memory.cell? s.buf i.val).isSome = true) (ha : s.armed = true) : s.Inv :=
  ⟨hm, ht, hw, fun h => by rw [ha] at h; cases h⟩

/-- Hunting: `AwaitingHeader1`. -/
def h1 : State := mid .awaitingHeader1 []
/-- `AwaitingHeader2`. -/
def h2 : State := mid .awaitingHeader2 [0x55]
/-- `AwaitingCommand`. -/
def cmd : State := mid .awaitingCommand [0x55, 0xAA]
/-- `AwaitingLength`, of a Reset response. -/
def lng : State := mid .awaitingLength [0x55, 0xAA, 0x84]
/-- `AwaitingPayload`, the first of 27 payload bytes. -/
def pay : State := mid .awaitingPayload [0x55, 0xAA, 0x82, 0x1B]
/-- `AwaitingPayload`, the only payload byte. -/
def pay1 : State := mid .awaitingPayload [0x55, 0xAA, 0x82, 0x01]
/-- `AwaitingPayload`, the last of 27 payload bytes. -/
def payEnd : State := mid .awaitingPayload ([0x55, 0xAA, 0x82, 0x1B] ++ List.replicate 26 0x01)
/-- `AwaitingEnd` of a Reset response without payload. -/
def fin : State := mid .awaitingEnd [0x55, 0xAA, 0x84, 0x00]
/-- `AwaitingEnd` with 27 payload bytes, command 0x82. -/
def finFull : State := mid .awaitingEnd ([0x55, 0xAA, 0x82, 0x1B] ++ List.replicate 27 0x01)

theorem inv_h1 : h1.Inv := inv_of _ (by decide) (show (_ : Nat) = _ from rfl) (by decide) rfl
theorem inv_h2 : h2.Inv := inv_of _ (by decide) (show _ ∧ _ from ⟨rfl, rfl⟩) (by decide) rfl
theorem inv_cmd : cmd.Inv := inv_of _ (by decide) (show _ ∧ _ ∧ _ from ⟨rfl, rfl, rfl⟩) (by decide) rfl
theorem inv_lng : lng.Inv := inv_of _ (by decide) (show _ ∧ _ ∧ _ from ⟨rfl, rfl, rfl⟩) (by decide) rfl
theorem inv_pay : pay.Inv := inv_of _ (by decide)
  (show _ ∧ _ ∧ _ ∧ _ ∧ _ from ⟨by decide, by decide, by decide, rfl, rfl⟩) (by decide) rfl
theorem inv_pay1 : pay1.Inv := inv_of _ (by decide)
  (show _ ∧ _ ∧ _ ∧ _ ∧ _ from ⟨by decide, by decide, by decide, rfl, rfl⟩) (by decide) rfl
theorem inv_payEnd : payEnd.Inv := inv_of _ (by decide)
  (show _ ∧ _ ∧ _ ∧ _ ∧ _ from ⟨by decide, by decide, by decide, rfl, rfl⟩) (by decide) rfl
theorem inv_fin : fin.Inv := inv_of _ (by decide)
  (show _ ∧ _ ∧ _ ∧ _ from ⟨rfl, by decide, rfl, rfl⟩) (by decide) rfl
theorem inv_finFull : finFull.Inv := inv_of _ (by decide)
  (show _ ∧ _ ∧ _ ∧ _ from ⟨rfl, by decide, rfl, rfl⟩) (by decide) rfl
theorem hunting_h1 : h1.Hunting := ⟨inv_h1, rfl, rfl⟩

/-! ### Witnesses: one for each statement with hypotheses, named after it; each meets all of them together -/

theorem witness_DecodeOfEncodeIsTheInstruction :
    ((Instr.payMore 0xFA).wellFormed ∧ (Instr.payMore 0xFA).fits 4 2) ∧
    ((Instr.payLast 0xFA).wellFormed ∧ (Instr.payLast 0xFA).fits 30 27) ∧
    ((Instr.lenPayload 27).wellFormed ∧ (Instr.lenPayload 27).fits 3 0) ∧
    ((Instr.req .reset).wellFormed ∧ (Instr.req .reset).fits 0 0) := by decide

theorem witness_EncodeOfDecodeIsTheBytes :
    decode 0 0 [0x03, 0x1C] = .ok (.lenReject 28) ∧ decode 4 1 [0x04, 0xFA] = .ok (.payLast 0xFA) ∧
    decode 0 0 [0x87] = .ok (.otherCommand 0x87) ∧ decode 0 0 [0x55, 0xAA, 0x84, 0, 0xFA] = .ok (.req .reset) := by decide

theorem witness_ExactlyOneRowApplies :
    (pay.Inv ∧ RowApplies (.payMore 0) pay 0) ∧ (payEnd.Inv ∧ RowApplies (.payLast 0) payEnd 0) ∧
    (lng.Inv ∧ RowApplies (.lenReject 28) lng 28) :=
  ⟨⟨inv_pay, rfl, rfl, by decide⟩, ⟨inv_payEnd, rfl, rfl, by decide⟩, ⟨inv_lng, rfl, rfl, by decide⟩⟩

theorem witness_StepRunsTheDecodedInstruction :
    decode lng.cursor.val (lng.cell 3) (encodeStep lng.state 0xFF) = .ok (.lenReject 0xFF) ∧
    decode payEnd.cursor.val (payEnd.cell 3) (encodeStep payEnd.state 0x55) = .ok (.payLast 0x55) := ⟨rfl, rfl⟩

theorem witness_FirstHeaderByteIsStored : h1.armed = true ∧ h1.state = .awaitingHeader1 := by decide

theorem witness_OtherFirstBytesAreIgnored :
    h1.armed = true ∧ h1.state = .awaitingHeader1 ∧ (0x54 : Byte) ≠ 0x55 := by decide

theorem witness_SecondHeaderByteIsStored : h2.armed = true ∧ h2.state = .awaitingHeader2 := by decide

theorem witness_BadSecondHeaderResynchronizes :
    h2.armed = true ∧ h2.state = .awaitingHeader2 ∧ (0x55 : Byte) ≠ 0xAA := by decide

theorem witness_AnyCommandByteIsStored : cmd.Inv ∧ cmd.armed = true ∧ cmd.state = .awaitingCommand :=
  ⟨inv_cmd, rfl, rfl⟩

theorem witness_LegalLengthStartsThePayload : lng.Inv ∧ lng.armed = true ∧ lng.state = .awaitingLength ∧
    (1 ≤ (0x01 : Byte).toNat ∧ (0x01 : Byte).toNat ≤ 27) ∧ (1 ≤ (0x1B : Byte).toNat ∧ (0x1B : Byte).toNat ≤ 27) :=
  ⟨inv_lng, rfl, rfl, by decide, by decide⟩

theorem witness_ZeroLengthSkipsThePayload : lng.Inv ∧ lng.armed = true ∧ lng.state = .awaitingLength :=
  ⟨inv_lng, rfl, rfl⟩

theorem witness_OversizeLengthResynchronizes : lng.Inv ∧ lng.armed = true ∧ lng.state = .awaitingLength ∧
    28 ≤ (0x1C : Byte).toNat ∧ 28 ≤ (0xFF : Byte).toNat :=
  ⟨inv_lng, rfl, rfl, by decide, by decide⟩

theorem witness_PayloadByteIsStoredAndPayloadGoesOn : pay.Inv ∧ pay.armed = true ∧ pay.state = .awaitingPayload ∧
    pay.cursor.val + 1 < 4 + pay.len.toNat :=
  ⟨inv_pay, rfl, rfl, by decide⟩

theorem witness_LastPayloadByteLeadsToTheTrailer :
    (pay1.Inv ∧ pay1.armed = true ∧ pay1.state = .awaitingPayload ∧ pay1.cursor.val + 1 = 4 + pay1.len.toNat) ∧
    (payEnd.Inv ∧ payEnd.armed = true ∧ payEnd.state = .awaitingPayload ∧
      payEnd.cursor.val + 1 = 4 + payEnd.len.toNat) :=
  ⟨⟨inv_pay1, rfl, rfl, by decide⟩, ⟨inv_payEnd, rfl, rfl, by decide⟩⟩

theorem witness_TrailerIsStoredAndFrameDispatched :
    (fin.Inv ∧ fin.armed = true ∧ fin.state = .awaitingEnd) ∧
    (finFull.Inv ∧ finFull.armed = true ∧ finFull.state = .awaitingEnd) :=
  ⟨⟨inv_fin, rfl, rfl⟩, ⟨inv_finFull, rfl, rfl⟩⟩

theorem witness_ByteWhileNotArmedIsRefused : State.reset.armed = false := by decide

theorem witness_EveryByteStepEndsWithTheRearm : ∃ t, step (fin.offer (.byte 0x00)) = .next t := ⟨_, rfl⟩

theorem witness_StoreAtTheCapacityFaults : ({ fin with cursor := 32 } : State).armed = true ∧
    ({ fin with cursor := 32 } : State).cursor.val = 32 ∧
    Instr.endDispatch 0 ∈ [Instr.cmdStore 0, .lenPayload 0, .lenEmpty, .lenReject 0, .payMore 0, .payLast 0, .endDispatch 0] := by
  decide

/-- A trailer's step with its events, one of them the dispatch. -/
theorem dispatched (s t : State) (b : Byte) (h : step (s.offer (.byte b)) = .next t) (e : s.trace = []) :
    step (s.offer (.byte b)) = .next t ∧ EventsOf s t t.trace :=
  ⟨h, by rw [EventsOf, e, List.nil_append]⟩

/-- The three clauses: a dispatch, a bad second header byte, an oversize length. -/
theorem witness_ResyncAndDispatchExcludeEachOther :
    (∃ t evs, step (fin.offer (.byte 0xFA)) = .next t ∧ EventsOf fin t evs ∧ ¬ NoDispatch evs) ∧
    (∃ t evs, step (h2.offer (.byte 0x55)) = .next t ∧ EventsOf h2 t evs ∧ ¬ NoResync evs) ∧
    (∃ t evs, step (lng.offer (.byte 28)) = .next t ∧ EventsOf lng t evs ∧ ¬ NoResync evs) := by
  refine ⟨⟨_, _, rfl, (dispatched fin _ 0xFA rfl rfl).2, fun h => ?_⟩, ⟨_, [_, _], rfl, rfl, fun h => ?_⟩,
    ⟨_, [_, _, _], rfl, rfl, fun h => ?_⟩⟩
  · exact absurd (h _ (.tail _ (.head _))) (by decide)
  · exact absurd (h _ (.head _)) (by decide)
  · exact absurd (h _ (.tail _ (.head _))) (by decide)

theorem witness_EveryDispatchHasAValidHeaderAndLength :
    (fin.Inv ∧ ∃ t evs snap, step (fin.offer (.byte 0xFA)) = .next t ∧ EventsOf fin t evs ∧
      Event.dispatch 5 snap true ∈ evs) ∧
    (finFull.Inv ∧ ∃ t evs snap, step (finFull.offer (.byte 0x00)) = .next t ∧ EventsOf finFull t evs ∧
      Event.dispatch 32 snap false ∈ evs) :=
  ⟨⟨inv_fin, _, _, _, rfl, (dispatched fin _ 0xFA rfl rfl).2, .tail _ (.head _)⟩,
    ⟨inv_finFull, _, _, _, rfl, (dispatched finFull _ 0x00 rfl rfl).2, .tail _ (.head _)⟩⟩

/-- A dispatch, each resynchronization, and neither. -/
theorem witness_PortsShowTheStepAndItsEvents :
    (fin.Inv ∧ ∃ t evs, step (fin.offer (.byte 0xFA)) = .next t ∧ EventsOf fin t evs ∧ fin.state = .awaitingEnd) ∧
    (h2.Inv ∧ ∃ t evs, step (h2.offer (.byte 0x55)) = .next t ∧ EventsOf h2 t evs ∧
      h2.state = .awaitingHeader2 ∧ (0x55 : Byte) ≠ 0xAA) ∧
    (lng.Inv ∧ ∃ t evs, step (lng.offer (.byte 28)) = .next t ∧ EventsOf lng t evs ∧
      lng.state = .awaitingLength ∧ 28 ≤ (28 : Byte).toNat) ∧
    (cmd.Inv ∧ ∃ t evs, step (cmd.offer (.byte 0x81)) = .next t ∧ EventsOf cmd t evs) :=
  ⟨⟨inv_fin, _, _, rfl, (dispatched fin _ 0xFA rfl rfl).2, rfl⟩,
    ⟨inv_h2, _, _, rfl, (dispatched h2 _ 0x55 rfl rfl).2, rfl, by decide⟩,
    ⟨inv_lng, _, _, rfl, (dispatched lng _ 28 rfl rfl).2, rfl, by decide⟩,
    ⟨inv_cmd, _, _, rfl, (dispatched cmd _ 0x81 rfl rfl).2⟩⟩

theorem witness_EveryStepKeepsTheInvariant :
    (fin.offer (.byte 0x00)).Inv ∧ ∃ t, step (fin.offer (.byte 0x00)) = .next t :=
  ⟨⟨inv_fin.1, inv_fin.2, inv_fin.3, inv_fin.4⟩, _, rfl⟩

/-- Each of the two outcomes: a next state, and the refusal of a byte before boot. -/
theorem witness_StepNeverFaults :
    pay.Inv ∧ (State.reset.offer (.byte 0x55)).Inv ∧ step (State.reset.offer (.byte 0x55)) = .refused .byteNotArmed :=
  ⟨inv_pay, ⟨rfl, show (_ : Nat) = _ from rfl, by decide, by decide⟩, rfl⟩

theorem witness_AnyByteSequenceStaysInBounds : payEnd.Inv ∧ payEnd.armed = true := ⟨inv_payEnd, rfl⟩

/-- The longest way back: `AwaitingHeader2`, the second header byte, a command, the length 27, 27 bytes and a trailer. -/
theorem witness_ThirtyOneBytesReachTheHeaderHunt :
    h2.Inv ∧ h2.armed = true ∧ ([0xAA, 0x81, 0x1B] ++ List.replicate 28 (0 : Byte)).length = 31 := ⟨inv_h2, rfl, rfl⟩

theorem witness_PartialFrameWaitsForEver : pay.input = [] := by decide

/-- The shortest and the longest frame. -/
theorem witness_FrameIsDispatchedExactlyOnce :
    h1.Hunting ∧ ([] : List Byte).length ≤ 27 ∧ (List.replicate 27 (0x55 : Byte)).length ≤ 27 :=
  ⟨hunting_h1, by decide, by decide⟩

theorem witness_FrameBytesStandInArrivalOrder :
    h1.Hunting ∧ (List.replicate 27 (0x55 : Byte)).length ≤ 27 ∧
      31 < (dispatchable 0x81 (List.replicate 27 0x55) 0xFA).length :=
  ⟨hunting_h1, by decide, by decide⟩

theorem witness_RejectedAttemptIsNeverDispatched :
    (h1.Hunting ∧ (0x55 : Byte) ≠ 0xAA) ∧ (h1.Hunting ∧ 28 ≤ (0x28 : Byte).toNat) :=
  ⟨⟨hunting_h1, by decide⟩, ⟨hunting_h1, by decide⟩⟩

theorem witness_OddStrayHeaderBytesLoseTheFrame : h1.Hunting := hunting_h1

theorem witness_BytesWithoutHeaderAreAllIgnored : h1.Hunting ∧ (0x55 : Byte) ∉ [(0xAA : Byte), 0x81, 0xFA] :=
  ⟨hunting_h1, by decide⟩

theorem witness_FramesDeliverTheirPayload :
    h1.Hunting ∧ ([] : List Byte).length ≤ 20 ∧ (List.replicate 24 (0 : Byte)).length ≤ 24 ∧
      (List.replicate 20 (0 : Byte)).length ≤ 20 :=
  ⟨hunting_h1, by decide, by decide, by decide⟩

theorem witness_RequestFedBackIsDispatched :
    h1.Hunting ∧ ∃ c d : Command, c = .measure ∧ d = .reset := ⟨hunting_h1, _, _, rfl, rfl⟩

/-- Two machines in the last payload byte that differ in a stale cell, in the reset count and in the sensor record. -/
theorem witness_StaleCellsNeverSteerTheParser :
    ∃ s s' : State, s.Inv ∧ s'.Inv ∧ SameParse s s' ∧ s.armed = true ∧ s.cell 9 ≠ s'.cell 9 ∧ s.sensor ≠ s'.sensor := by
  refine ⟨pay1.write 9 0x01, { pay1.write 9 0x02 with epoch := 7, sensor := { pay1.sensor with unread := true } },
    inv_of _ (by decide) (show _ ∧ _ ∧ _ ∧ _ ∧ _ from ⟨by decide, by decide, by decide, rfl, rfl⟩) (by decide) rfl,
    inv_of _ (by decide) (show _ ∧ _ ∧ _ ∧ _ ∧ _ from ⟨by decide, by decide, by decide, rfl, rfl⟩) (by decide) rfl,
    ⟨rfl, rfl, rfl, ?_⟩, rfl, by decide, by decide⟩
  intro i hi
  have h : i = 0 ∨ i = 1 ∨ i = 2 ∨ i = 3 := by
    have : i.val < 4 := hi
    omega
  rcases h with rfl | rfl | rfl | rfl <;> rfl

theorem witness_NormalContextLeavesTheParserAlone :
    ∃ x y z : Input, x = .takeUnread ∧ (∃ f, y = .read f) ∧ ∃ c, z = .send c :=
  ⟨_, _, _, rfl, ⟨.distance, rfl⟩, .measure, rfl⟩

/-- A recognized frame, a `takeUnreadFlag()` and a reset that change the record. -/
theorem witness_SensorChangesOnlyByRecognizedFrames :
    (fin.Inv ∧ ∃ t, step (fin.offer (.byte 0xFA)) = .next t ∧ t.sensor ≠ fin.sensor) ∧
    ∃ s : State, s.Inv ∧ (∃ t, step (s.offer .takeUnread) = .next t ∧ t.sensor ≠ s.sensor) ∧
      ∃ t, step (s.offer .resetAssert) = .next t ∧ t.sensor ≠ s.sensor :=
  ⟨⟨inv_fin, _, rfl, by decide⟩,
    { fin with sensor := { fin.sensor with unread := true } }, ⟨inv_fin.1, inv_fin.2, inv_fin.3, inv_fin.4⟩,
    ⟨_, rfl, by decide⟩, _, rfl, by decide⟩

/-- A run of one trailer byte, with the flag clear before it. -/
theorem witness_UnreadIsSetExactlyBySuccess :
    (fin.offer (.byte 0xFA)).sensor.unread = false ∧
    (∀ x ∈ (fin.offer (.byte 0xFA)).input, x ≠ .resetAssert ∧ x ≠ .takeUnread) ∧
    ∃ t, runSteps 1 (fin.offer (.byte 0xFA)) = .next t ∧ EventsOf (fin.offer (.byte 0xFA)) t t.trace :=
  ⟨rfl, by decide, _, rfl, (dispatched fin _ 0xFA rfl rfl).2⟩

theorem witness_OtherCommandsFailAndChangeNothing :
    Instr.otherCommand 0x80 ∈ [Instr.crosstalkCorrection, .offsetCorrection, .otherCommand 0x80] := by decide

end Sys2Proof.Tests
end

section
/-! The header hunt (R70 to R72): which transition a byte selects while a header byte is awaited, the state after a
transition that stores its byte, and from these the statements about T1, T2 and T3. -/

namespace Sys2Proof.Machine

open Sys2Proof

/-! ### The transition fetched -/

theorem fetched_header1 (s : State) (hs : s.state = .awaitingHeader1) : s.fetched Config.header1 = .h1Match := by
  have hb : header1OK Config.header1 = true := (header1OK_iff _).mpr rfl
  simp [State.fetched, selectTransition, hs, hb]

theorem fetched_notHeader1 (s : State) (b : Byte) (hs : s.state = .awaitingHeader1) (hb : b ≠ Config.header1) :
    s.fetched b = .h1Ignore b := by
  have hb : ¬ header1OK b = true := mt (header1OK_iff b).mp hb
  simp [State.fetched, selectTransition, hs, hb]

theorem fetched_header2 (s : State) (hs : s.state = .awaitingHeader2) : s.fetched Config.header2 = .h2Match := by
  have hb : header2OK Config.header2 = true := (header2OK_iff _).mpr rfl
  simp [State.fetched, selectTransition, hs, hb]

/-- A byte's step is exec of the transition fetched (R52). -/
theorem step_offer_byte_of_fetched {s : State} {b : Byte} {i : Instr} (h : s.fetched b = i) :
    step (s.offer (.byte b)) = exec i s := by
  rw [step_offer_byte, h]

/-! ### A transition that stores its byte -/

/-- The state after a step that stores `b` in cell `i`, leaves the cursor at `c` and awaits what `st` awaits. -/
def afterStore (s : State) (i : Fin 32) (b : Byte) (c : Fin 33) (st : ParserState) : State :=
  (((s.disarm.storeAt i b).setCursor c).goto st).rearm

variable (s : State) (i : Fin 32) (b : Byte) (c : Fin 33) (st : ParserState)

@[simp] theorem afterStore_state : (afterStore s i b c st).state = st := rfl
@[simp] theorem afterStore_cursor : (afterStore s i b c st).cursor = c := rfl
@[simp] theorem afterStore_armed : (afterStore s i b c st).armed = true := rfl

theorem afterStore_storesOnly : StoresOnly s (afterStore s i b c st) i b := by
  intro a
  simp [afterStore]

theorem afterStore_events : EventsOf s (afterStore s i b c st) [.stored i b, .rearm] := by
  simp [EventsOf, afterStore]

theorem afterStore_sameRest : SameRest s (afterStore s i b c st) := ⟨rfl, rfl, rfl, rfl, rfl⟩

/-- What every storing transition says besides the parser state and the cursor it leads to (R31, R36, R95). -/
theorem afterStore_frame :
    StoresOnly s (afterStore s i b c st) i b ∧ (afterStore s i b c st).armed = true ∧
      EventsOf s (afterStore s i b c st) [.stored i b, .rearm] ∧ SameRest s (afterStore s i b c st) :=
  ⟨afterStore_storesOnly s i b c st, afterStore_armed s i b c st, afterStore_events s i b c st, afterStore_sameRest s i b c st⟩

theorem exec_h1Match_next (h : s.armed = true) :
    exec .h1Match s = .next (afterStore s 0 Config.header1 1 .awaitingHeader2) := execH1Match_next s h

theorem exec_h2Match_next (h : s.armed = true) :
    exec .h2Match s = .next (afterStore s 1 Config.header2 2 .awaitingCommand) := execH2Match_next s h

/-! ### The ignored byte -/

theorem exec_h1Ignore_next (h : s.armed = true) : exec (.h1Ignore b) s = .next (s.disarm.emit (.ignored b)).rearm :=
  execH1Ignore_next s b h

theorem ignored_storesNothing : StoresNothing s (s.disarm.emit (.ignored b)).rearm := by
  intro a
  simp

theorem ignored_events : EventsOf s (s.disarm.emit (.ignored b)).rearm [.ignored b, .rearm] := by
  simp [EventsOf]

theorem ignored_sameRest : SameRest s (s.disarm.emit (.ignored b)).rearm := ⟨rfl, rfl, rfl, rfl, rfl⟩

end Sys2Proof.Machine

/-! ### The statements -/

namespace Sys2Proof.Proofs

open Sys2Proof Sys2Proof.Machine

/-- Settles O10: 0x55 is `HEADER1`, so T1 is fetched, and its next state is the one after a store in cell 0. -/
theorem firstHeaderByteIsStored : Obligations.FirstHeaderByteIsStored := by
  intro s ha hs
  exact ⟨step_offer_byte_of_fetched (fetched_header1 s hs), _, exec_h1Match_next s ha, afterStore_state ..,
    congrArg Fin.val (afterStore_cursor ..), afterStore_frame s _ _ _ _⟩

/-- Settles O11: any other byte fetches T2, which emits `Ignored` between the disarm and the re-arm. -/
theorem otherFirstBytesAreIgnored : Obligations.OtherFirstBytesAreIgnored := by
  intro s b ha hs hb
  exact ⟨step_offer_byte_of_fetched (fetched_notHeader1 s b hs hb), _, exec_h1Ignore_next s b ha, rfl, rfl,
    ignored_storesNothing s b, rfl, ignored_events s b, ignored_sameRest s b⟩

/-- Settles O12: 0xAA is `HEADER2`, so T3 is fetched, and its next state is the one after a store in cell 1. -/
theorem secondHeaderByteIsStored : Obligations.SecondHeaderByteIsStored := by
  intro s ha hs
  exact ⟨step_offer_byte_of_fetched (fetched_header2 s hs), _, exec_h2Match_next s ha, afterStore_state ..,
    congrArg Fin.val (afterStore_cursor ..), afterStore_frame s _ _ _ _⟩

end Sys2Proof.Proofs
end

section
/-! The command and length bytes (R80 to R82): where the invariant has the cursor while one of them is awaited, which
transition the byte selects, the state after T5, T6 and T7, and from these the statements about them. -/

namespace Sys2Proof.Machine

open Sys2Proof

/-! ### The cursor (R13) -/

theorem State.Inv.cursor_of_awaitingCommand {s : State} (h : s.Inv) (hs : s.state = .awaitingCommand) :
    s.cursor.val = 2 := by
  have tied := h.tied
  simp only [State.Tied, hs] at tied
  exact tied.left

theorem State.Inv.cursor_of_awaitingLength {s : State} (h : s.Inv) (hs : s.state = .awaitingLength) :
    s.cursor.val = 3 := by
  have tied := h.tied
  simp only [State.Tied, hs] at tied
  exact tied.left

/-! ### The transition fetched -/

theorem fetched_command (s : State) (b : Byte) (hs : s.state = .awaitingCommand) : s.fetched b = .cmdStore b := by
  simp only [State.fetched, selectTransition, hs]

theorem fetched_legalLength (s : State) (b : Byte) (hs : s.state = .awaitingLength) (h1 : 1 ≤ b.toNat)
    (h27 : b.toNat ≤ 27) : s.fetched b = .lenPayload b := by
  have hne : b ≠ 0 := by rintro rfl; exact absurd h1 (by decide)
  have hok : lengthOK b = true := (lengthOK_iff b).mpr h27
  simp only [State.fetched, selectTransition, hs, if_neg hne, if_pos hok]

theorem fetched_zeroLength (s : State) (hs : s.state = .awaitingLength) : s.fetched 0 = .lenEmpty := by
  simp only [State.fetched, selectTransition, hs, if_pos]

/-! ### A transition that stores its byte at the cursor -/

variable (s : State) (i : Fin 32) (b : Byte) (c : Fin 33) (st : ParserState)

/-- With the cursor at cell `i`, a store at the cursor, a change of parser state and the re-arm lead to the state after a
store in cell `i`, with the cursor on the next cell. -/
theorem stored_goto_rearm (hi : s.cursor.val = i.val) (hc : s.cursor.val < 32) :
    ((stored s b hc).goto st).rearm = afterStore s i b i.succ st := by
  obtain rfl : i = ⟨s.cursor.val, hc⟩ := Fin.ext hi.symm
  rfl

/-- A store in cell 3 sets `L` (R55). -/
theorem afterStore_len : (afterStore s lengthIndex b c st).len = b :=
  (afterStore_storesOnly s lengthIndex b c st lengthIndex).trans (if_pos rfl)

theorem exec_cmdStore_next (h : s.armed = true) (hi : s.cursor.val = i.val) :
    exec (.cmdStore b) s = .next (afterStore s i b i.succ .awaitingLength) := by
  have hc : s.cursor.val < 32 := hi ▸ i.isLt
  rw [← stored_goto_rearm s i b _ hi hc]
  exact execCmdStore_next s b h hc

theorem exec_lenPayload_next (h : s.armed = true) (hi : s.cursor.val = i.val) :
    exec (.lenPayload b) s = .next (afterStore s i b i.succ .awaitingPayload) := by
  have hc : s.cursor.val < 32 := hi ▸ i.isLt
  rw [← stored_goto_rearm s i b _ hi hc]
  exact execLenPayload_next s b h hc

theorem exec_lenEmpty_next (h : s.armed = true) (hi : s.cursor.val = i.val) :
    exec .lenEmpty s = .next (afterStore s i 0 i.succ .awaitingEnd) := by
  have hc : s.cursor.val < 32 := hi ▸ i.isLt
  rw [← stored_goto_rearm s i 0 _ hi hc]
  exact execLenEmpty_next s h hc

end Sys2Proof.Machine

/-! ### The statements -/

namespace Sys2Proof.Proofs

open Sys2Proof Sys2Proof.Machine

/-- Settles O14: every byte fetches T5, and the invariant has the cursor at the command's cell. -/
theorem anyCommandByteIsStored : Obligations.AnyCommandByteIsStored := by
  intro s b hinv ha hs
  have hi : s.cursor.val = commandIndex.val := hinv.cursor_of_awaitingCommand hs
  exact ⟨step_offer_byte_of_fetched (fetched_command s b hs), _, exec_cmdStore_next s _ b ha hi, afterStore_state ..,
    congrArg Fin.val (afterStore_cursor ..), afterStore_frame s _ _ _ _⟩

/-- Settles O15: a length from 1 to 27 is not 0 and meets the length condition, so T6 is fetched, and the invariant has
the cursor at the length's cell. -/
theorem legalLengthStartsThePayload : Obligations.LegalLengthStartsThePayload := by
  intro s b hinv ha hs h1 h27
  have hi : s.cursor.val = lengthIndex.val := hinv.cursor_of_awaitingLength hs
  exact ⟨step_offer_byte_of_fetched (fetched_legalLength s b hs h1 h27), _, exec_lenPayload_next s _ b ha hi,
    afterStore_state .., congrArg Fin.val (afterStore_cursor ..), afterStore_len .., afterStore_frame s _ _ _ _⟩

/-- Settles O16: the length 0 fetches T7, and the invariant has the cursor at the length's cell. -/
theorem zeroLengthSkipsThePayload : Obligations.ZeroLengthSkipsThePayload := by
  intro s hinv ha hs
  have hi : s.cursor.val = lengthIndex.val := hinv.cursor_of_awaitingLength hs
  exact ⟨step_offer_byte_of_fetched (fetched_zeroLength s hs), _, exec_lenEmpty_next s _ ha hi,
    afterStore_state .., congrArg Fin.val (afterStore_cursor ..), afterStore_len .., afterStore_frame s _ _ _ _⟩

end Sys2Proof.Proofs
end

section
/-! The payload bytes (R90, R91): which transition a payload byte selects before the last one and for it, the state after
T9 and T10, and from these the statements about them. -/

namespace Sys2Proof.Machine

open Sys2Proof

/-- The cell at the cursor of a state of the invariant, which R13 keeps below the capacity. -/
def State.Inv.cursorCell {s : State} (h : s.Inv) : Fin 32 := ⟨s.cursor.val, Nat.lt_succ_of_le h.cursor_le⟩

@[simp] theorem State.Inv.cursorCell_val {s : State} (h : s.Inv) : h.cursorCell.val = s.cursor.val := rfl

/-! ### The transition fetched -/

theorem fetched_payloadBeforeLast (s : State) (b : Byte) (hs : s.state = .awaitingPayload)
    (hl : s.cursor.val + 1 < 4 + s.len.toNat) : s.fetched b = .payMore b := by
  have hne : s.cursor.val + 1 ≠ Config.hdrLen + s.len.toNat := Nat.ne_of_lt hl
  simp only [State.fetched, selectTransition, hs, if_neg hne]

theorem fetched_lastPayload (s : State) (b : Byte) (hs : s.state = .awaitingPayload)
    (hl : s.cursor.val + 1 = 4 + s.len.toNat) : s.fetched b = .payLast b := by
  have heq : s.cursor.val + 1 = Config.hdrLen + s.len.toNat := hl
  simp only [State.fetched, selectTransition, hs, if_pos heq]

/-! ### The state after T9 and T10 -/

variable (s : State) (i : Fin 32) (b : Byte)

/-- The store at the cursor leaves the parser state as it is: going to the state the parser is in changes nothing. -/
theorem stored_goto_state (hc : s.cursor.val < 32) : (stored s b hc).goto s.state = stored s b hc := rfl

/-- T9 changes no parser state, so its next state awaits what `s` awaits. -/
theorem exec_payMore_next (h : s.armed = true) (hi : s.cursor.val = i.val) :
    exec (.payMore b) s = .next (afterStore s i b i.succ s.state) := by
  have hc : s.cursor.val < 32 := hi ▸ i.isLt
  rw [← stored_goto_rearm s i b _ hi hc, stored_goto_state]
  exact execPayMore_next s b h hc

theorem exec_payLast_next (h : s.armed = true) (hi : s.cursor.val = i.val) :
    exec (.payLast b) s = .next (afterStore s i b i.succ .awaitingEnd) := by
  have hc : s.cursor.val < 32 := hi ▸ i.isLt
  rw [← stored_goto_rearm s i b _ hi hc]
  exact execPayLast_next s b h hc

end Sys2Proof.Machine

/-! ### The statements -/

namespace Sys2Proof.Proofs

open Sys2Proof Sys2Proof.Machine

/-- Settles O18: with the cursor not yet reaching `4 + L` T9 is fetched, which stores at the cursor and goes to no other
parser state. -/
theorem payloadByteIsStoredAndPayloadGoesOn : Obligations.PayloadByteIsStoredAndPayloadGoesOn := by
  intro s b hinv ha hs hl
  have hi : hinv.cursorCell.val = s.cursor.val := hinv.cursorCell_val
  exact ⟨step_offer_byte_of_fetched (fetched_payloadBeforeLast s b hs hl), _, hinv.cursorCell,
    exec_payMore_next s _ b ha hi.symm, hi, hs, congrArg Nat.succ hi, afterStore_frame s _ _ _ _⟩

/-- Settles O19: with the cursor at `3 + L` T10 is fetched, which stores there and awaits the trailer. -/
theorem lastPayloadByteLeadsToTheTrailer : Obligations.LastPayloadByteLeadsToTheTrailer := by
  intro s b hinv ha hs hl
  have hi : hinv.cursorCell.val = s.cursor.val := hinv.cursorCell_val
  have hcell : hinv.cursorCell.val = 3 + s.len.toNat := by omega
  have hcursor : hinv.cursorCell.succ.val = 4 + s.len.toNat := by rw [Fin.val_succ, hi, hl]
  exact ⟨step_offer_byte_of_fetched (fetched_lastPayload s b hs hl), _, hinv.cursorCell,
    exec_payLast_next s _ b ha hi.symm, hcell, afterStore_state .., hcursor, afterStore_frame s _ _ _ _⟩

end Sys2Proof.Proofs
end

section
/-! The interpreter's rows without a payload shape (R114, R117): its two outcomes as one changed state each, the length
check of a `Reset` response, and from these the statements about `Reset` and about every other command byte. -/

namespace Sys2Proof.Machine

open Sys2Proof

/-! ### The two outcomes (R117, R118) -/

theorem interpretFailed_eq (s : State) :
    s.interpretFailed = { s with trace := s.trace ++ [.interpResult false] } := rfl

theorem interpretOk_eq (s : State) (r : SensorState) :
    s.interpretOk r = { s with sensor := { r with unread := true }, trace := s.trace ++ [.interpResult true] } := rfl

/-! ### The length check (R119) -/

/-- A command whose shape needs no payload byte passes the length check under either setting. -/
theorem tooShort_of_minLen_zero (s : State) {c : Command} (h : minLen c = 0) : s.tooShort c = false := by
  have hlen : ¬ s.len.toNat < minLen c := h ▸ Nat.not_lt_zero _
  rw [State.tooShort, decide_eq_false hlen, Bool.false_and]

/-- A `Reset` response always succeeds, with the record's fields as they are (R114). -/
theorem execResetResponse_eq (s : State) : execResetResponse s = .next (s.interpretOk s.sensor) := by
  have hlen : s.tooShort .reset = false := tooShort_of_minLen_zero s rfl
  rw [execResetResponse, hlen, if_neg Bool.false_ne_true]

/-! ### The rows' arms of exec -/

theorem exec_reset (s : State) : exec .reset s = .next (s.interpretOk s.sensor) := execResetResponse_eq s

theorem exec_crosstalkCorrection (s : State) : exec .crosstalkCorrection s = .next s.interpretFailed := rfl

theorem exec_offsetCorrection (s : State) : exec .offsetCorrection s = .next s.interpretFailed := rfl

theorem exec_otherCommand (s : State) (c : Byte) : exec (.otherCommand c) s = .next s.interpretFailed := rfl

end Sys2Proof.Machine

/-! ### The statements -/

namespace Sys2Proof.Proofs

open Sys2Proof Sys2Proof.Machine

/-- Settles O45: the shape of a `Reset` response needs no payload byte, so the length check never fails it, and its
success writes back the record it found, with `unread` set. -/
theorem resetResponseOnlySetsUnread : Obligations.ResetResponseOnlySetsUnread := by
  intro s
  rw [exec_reset, interpretOk_eq]

/-- Settles O48: each of the three rows is the interpreter's failure, which emits its result and writes nothing. -/
theorem otherCommandsFailAndChangeNothing : Obligations.OtherCommandsFailAndChangeNothing := by
  intro s c i hi
  rw [← interpretFailed_eq]
  simp only [List.mem_cons, List.not_mem_nil, or_false] at hi
  obtain rfl | rfl | rfl := hi
  · exact exec_crosstalkCorrection s
  · exact exec_offsetCorrection s
  · exact exec_otherCommand s c

end Sys2Proof.Proofs
end

section
/-! No step faults (R140): the move of a pending byte, armed or not, the move of every other input, and from these the
statement about every step from a state of the invariant. -/

namespace Sys2Proof.Machine

open Sys2Proof

variable (s : State) (b : Byte)

/-- A byte while not armed has no step (R170), whatever transition it selects. -/
theorem step_offer_byte_not_armed (h : s.armed = false) : step (s.offer (.byte b)) = .refused .byteNotArmed := by
  obtain ⟨f, hf⟩ := exec_fetched_receive s b
  rw [step_offer_byte, hf, receive_not_armed f s h]

/-- A byte while armed has its step, since the invariant keeps the cursor below the capacity (R13, R34). -/
theorem State.Inv.step_offer_byte_armed {s : State} {b : Byte} (h : (s.offer (.byte b)).Inv) (ha : s.armed = true) :
    ∃ t, step (s.offer (.byte b)) = .next t := by
  have hc : s.cursor.val < 32 := Nat.lt_succ_of_le h.cursor_le
  obtain ⟨t, ht, _⟩ := byteStep_exists s b ha (.inr (.inr hc))
  exact ⟨t, ht⟩

/-- Every input but a byte has its step in every state (R122, R126, R160, R162). -/
theorem step_offer_next_or_byte (x : Input) : (∃ t, step (s.offer x) = .next t) ∨ ∃ b, x = .byte b := by
  cases x with
  | byte b => exact .inr ⟨b, rfl⟩
  | resetAssert => exact .inl ⟨_, step_offer_resetAssert s⟩
  | resetRelease => exact .inl ⟨_, step_offer_resetRelease s⟩
  | send c => exact .inl ⟨_, step_offer_send s c⟩
  | read f => exact .inl ⟨_, step_offer_read s f⟩
  | takeUnread => exact .inl ⟨_, step_offer_takeUnread s⟩

end Sys2Proof.Machine

/-! ### The statement -/

namespace Sys2Proof.Proofs

open Sys2Proof Sys2Proof.Machine

/-- Settles O28: an idle machine and every input but a byte have their step anyway; a byte has its step while armed, by
the invariant's bound on the cursor, and is refused while not armed. -/
theorem stepNeverFaults : Obligations.StepNeverFaults := by
  intro s hinv
  obtain hidle | ⟨u, x, rfl⟩ := offered s
  · exact .inl ⟨s, step_idle s hidle⟩
  · obtain hnext | ⟨b, rfl⟩ := step_offer_next_or_byte u x
    · exact .inl hnext
    · cases ha : u.armed with
      | true => exact .inl (hinv.step_offer_byte_armed ha)
      | false => exact .inr ⟨step_offer_byte_not_armed u b ha, ha, b, u.input, rfl⟩

end Sys2Proof.Proofs
end

section
/-! Decoding and encoding (R51, R61): the word of a `STEP` row names a parser state and a byte, and a transition is
the one selected there exactly when it is well formed and its row's condition holds; the same for the command rows and
the request; from these the statements about the decoder, the table's rows and the step's instruction. -/

namespace Sys2Proof.Machine

open Sys2Proof

/-! ### The parser state and the byte of a `STEP` word -/

/-- The parser state and the byte in the word of a `STEP` row (R51, R61); the rows of the companions have none. -/
def stepOperand (i : Instr) : Option (ParserState × Byte) :=
  match i with
  | .h1Match => some (.awaitingHeader1, Config.header1)
  | .h1Ignore b => some (.awaitingHeader1, b)
  | .h2Match => some (.awaitingHeader2, Config.header2)
  | .h2Resync b => some (.awaitingHeader2, b)
  | .cmdStore b => some (.awaitingCommand, b)
  | .lenPayload b => some (.awaitingLength, b)
  | .lenEmpty => some (.awaitingLength, 0)
  | .lenReject b => some (.awaitingLength, b)
  | .payMore b => some (.awaitingPayload, b)
  | .payLast b => some (.awaitingPayload, b)
  | .endDispatch b => some (.awaitingEnd, b)
  | _ => none

theorem encode_of_stepOperand {i : Instr} {st : ParserState} {b : Byte} (h : stepOperand i = some (st, b)) :
    encode i = encodeStep st b := by
  cases i <;> cases h <;> rfl

variable {st : ParserState} {b : Byte} {cursor : Nat} {l : Byte} {i : Instr}

theorem stepOperand_selectTransition : stepOperand (selectTransition st b cursor l) = some (st, b) := by
  cases st with
  | awaitingHeader1 =>
    simp only [selectTransition]
    split
    · next h => rw [(header1OK_iff b).mp h]; rfl
    · rfl
  | awaitingHeader2 =>
    simp only [selectTransition]
    split
    · next h => rw [(header2OK_iff b).mp h]; rfl
    · rfl
  | awaitingCommand => rfl
  | awaitingLength =>
    simp only [selectTransition]
    split
    · next h => rw [h]; rfl
    · split <;> rfl
  | awaitingPayload => simp only [selectTransition]; split <;> rfl
  | awaitingEnd => rfl

theorem wellFormed_selectTransition : (selectTransition st b cursor l).wellFormed = true := by
  cases st with
  | awaitingHeader1 | awaitingHeader2 =>
    simp only [selectTransition]
    split
    · rfl
    · next h => simpa [Instr.wellFormed] using h
  | awaitingCommand | awaitingEnd => rfl
  | awaitingLength =>
    simp only [selectTransition]
    split
    · rfl
    · next h0 => split <;> simp_all [Instr.wellFormed]
  | awaitingPayload => simp only [selectTransition]; split <;> rfl

theorem fits_selectTransition : (selectTransition st b cursor l).fits cursor l = true := by
  cases st with
  | awaitingHeader1 | awaitingHeader2 => simp only [selectTransition]; split <;> rfl
  | awaitingCommand | awaitingEnd => rfl
  | awaitingLength =>
    simp only [selectTransition]
    split
    · rfl
    · split <;> rfl
  | awaitingPayload =>
    simp only [selectTransition]
    split
    · next h => exact decide_eq_true h
    · next h => exact decide_eq_true h

theorem lengthOK_zero : lengthOK 0 = true := (lengthOK_iff 0).mpr (Nat.zero_le 27)

/-- A well-formed transition whose row's condition holds is the one selected by its own state and byte. -/
theorem selectTransition_of_stepOperand (ho : stepOperand i = some (st, b)) (hw : i.wellFormed = true)
    (hf : i.fits cursor l = true) : selectTransition st b cursor l = i := by
  cases i with
  | h1Match | h2Match | cmdStore b | lenEmpty | endDispatch b => cases ho; rfl
  | h1Ignore b | h2Resync b =>
    cases ho
    have hb := (Bool.not_eq_true' _).mp hw
    simp only [selectTransition, hb, Bool.false_eq_true, if_false]
  | lenPayload b =>
    cases ho
    obtain ⟨h0, hok⟩ := (Bool.and_eq_true _ _).mp hw
    rw [selectTransition, if_neg (bne_iff_ne.mp h0), if_pos hok]
  | lenReject b =>
    cases ho
    have hok : ¬ lengthOK b = true := by rw [(Bool.not_eq_true' _).mp hw]; exact Bool.false_ne_true
    have h0 : b ≠ 0 := by rintro rfl; exact hok lengthOK_zero
    rw [selectTransition, if_neg h0, if_neg hok]
  | payMore b =>
    cases ho
    exact if_neg (of_decide_eq_true hf)
  | payLast b =>
    cases ho
    exact if_pos (of_decide_eq_true hf)
  | _ => cases ho

/-- A state and a byte select a transition exactly when they stand in its word, it is well formed and its row's
condition on the cursor and the length holds (R51, R52). -/
theorem selectTransition_eq_iff :
    selectTransition st b cursor l = i ↔
      stepOperand i = some (st, b) ∧ i.wellFormed = true ∧ i.fits cursor l = true := by
  constructor
  · rintro rfl
    exact ⟨stepOperand_selectTransition, wellFormed_selectTransition, fits_selectTransition⟩
  · rintro ⟨ho, hw, hf⟩
    exact selectTransition_of_stepOperand ho hw hf

theorem decode_of_stepOperand (ho : stepOperand i = some (st, b)) (hw : i.wellFormed = true)
    (hf : i.fits cursor l = true) : decode cursor l (encode i) = .ok i := by
  rw [encode_of_stepOperand ho, decode_encodeStep, selectTransition_of_stepOperand ho hw hf]

/-! ### The command rows and the request -/

/-- The instructions that the bytes of no `STEP` word stand for: a command row or a request. -/
theorem stepOperand_eq_none (h : stepOperand i = none) :
    (∃ c, encode i = [c] ∧ (i.wellFormed = true → decodeCommand c = i)) ∨ ∃ c, i = .req c := by
  cases i with
  | measure | crosstalkCorrection | offsetCorrection | reset | getFactoryDefaultSettings | getProductInfo =>
    exact .inl ⟨_, rfl, fun _ => rfl⟩
  | otherCommand c =>
    refine .inl ⟨c, rfl, fun hw => ?_⟩
    have hc : commandOfCode c = none := Option.isNone_iff_eq_none.mp hw
    simp only [decodeCommand, hc]
  | req c => exact .inr ⟨c, rfl⟩
  | _ => cases h

theorem decodeRequest_code (c : Command) :
    decodeRequest Config.header1 Config.header2 (commandCode c) 0 Config.endMarker = .ok (.req c) := by
  simp only [decodeRequest, commandOfCode_code, and_self, if_true]

/-- The command row of a byte is well formed and that byte is its word. -/
theorem decodeCommand_spec (c : Byte) :
    encode (decodeCommand c) = [c] ∧ (decodeCommand c).wellFormed = true ∧
      (decodeCommand c).fits cursor l = true := by
  cases hc : commandOfCode c with
  | none => simp only [decodeCommand, hc, encode, Instr.wellFormed, Instr.fits, Option.isNone_none, and_self]
  | some k =>
    have hcode := code_of_commandOfCode hc
    subst hcode
    cases k <;> exact ⟨rfl, rfl, rfl⟩

/-- Five bytes that decode are the request frame of the command they decode to. -/
theorem decodeRequest_eq_ok {b0 b1 c b3 b4 : Byte} (h : decodeRequest b0 b1 c b3 b4 = .ok i) :
    ∃ k, i = .req k ∧ requestFrame k = [b0, b1, c, b3, b4] := by
  unfold decodeRequest at h
  split at h
  · next hfields =>
    obtain ⟨rfl, rfl, rfl, rfl⟩ := hfields
    split at h
    · next k hk =>
      cases h
      exact ⟨k, rfl, by rw [requestFrame, code_of_commandOfCode hk]⟩
    · cases h
  · cases h

/-- The byte of a state's code is the upper byte of that state's words. -/
theorem encodeStep_of_stateOfCode {hi : Byte} (h : stateOfCode hi.toNat = some st) : encodeStep st b = [hi, b] := by
  rw [encodeStep_eq, ← code_of_stateOfCode h, BitVec.ofNat_toNat, BitVec.setWidth_eq]

/-! ### The rows of the table as conditions -/

theorem wellFormed_h1Ignore_iff : (Instr.h1Ignore b).wellFormed = true ↔ b ≠ 0x55 := by
  simp [Instr.wellFormed, header1OK, Config.header1, Config.hw]

theorem wellFormed_h2Resync_iff : (Instr.h2Resync b).wellFormed = true ↔ b ≠ 0xAA := by
  simp [Instr.wellFormed, header2OK, Config.header2, Config.hw]

theorem wellFormed_lenPayload_iff : (Instr.lenPayload b).wellFormed = true ↔ 1 ≤ b.toNat ∧ b.toNat ≤ 27 := by
  have hb : b ≠ 0 ↔ 1 ≤ b.toNat := by rw [Ne, ← BitVec.toNat_inj, Nat.one_le_iff_ne_zero]; rfl
  simp only [Instr.wellFormed, Bool.and_eq_true, bne_iff_ne, lengthOK_iff, hb]

theorem wellFormed_lenReject_iff : (Instr.lenReject b).wellFormed = true ↔ 28 ≤ b.toNat := by
  rw [Instr.wellFormed, Bool.not_eq_true', ← Bool.not_eq_true, lengthOK_iff, Nat.not_le]; rfl

theorem fits_payMore_iff : (Instr.payMore b).fits cursor l = true ↔ cursor + 1 ≠ 4 + l.toNat := decide_eq_true_iff

theorem fits_payLast_iff : (Instr.payLast b).fits cursor l = true ↔ cursor + 1 = 4 + l.toNat := decide_eq_true_iff

theorem operand_eq_iff {st' : ParserState} {c : Byte} : some (st', c) = some (st, b) ↔ st = st' ∧ c = b := by
  rw [Option.some.injEq, Prod.mk.injEq, @eq_comm _ st' st]

/-- The table's condition on a payload byte before the last is its `else` in the states of R13. -/
theorem State.Inv.payload_cursor_lt {s : State} (h : s.Inv) (hs : s.state = .awaitingPayload) :
    s.cursor.val < 4 + s.len.toNat := by
  have tied := h.tied
  simp only [State.Tied, hs] at tied
  exact tied.right.left

/-- A row's condition against its instruction: the same operand, and the conditions agree where the operand does. -/
theorem row_iff_operand {st' : ParserState} {c : Byte} {p q : Prop} (h : st = st' → c = b → (p ↔ q)) :
    (st = st' ∧ c = b ∧ p) ↔ (some (st', c) = some (st, b) ∧ q) := by
  rw [operand_eq_iff, and_assoc]
  exact and_congr_right fun hs => and_congr_right fun hb => h hs hb

/-- In the states of R13 a row applies exactly when its word holds the parser state and the byte, its instruction is
well formed and its condition on the cursor and the length holds. -/
theorem State.Inv.rowApplies_iff {s : State} (h : s.Inv) :
    RowApplies i s b ↔
      stepOperand i = some (s.state, b) ∧ i.wellFormed = true ∧ i.fits s.cursor.val s.len = true := by
  have free {st : ParserState} {c : Byte} :
      (s.state = st ∧ c = b) ↔ (some (st, c) = some (s.state, b) ∧ true ∧ true) :=
    operand_eq_iff.symm.trans (and_iff_left ⟨rfl, rfl⟩).symm
  cases i with
  | h1Match | h2Match | lenEmpty => exact (and_congr_right' eq_comm).trans free
  | cmdStore c | endDispatch c => exact free
  | h1Ignore c => exact row_iff_operand fun _ hb => by rw [wellFormed_h1Ignore_iff, hb]; exact (and_iff_left rfl).symm
  | h2Resync c => exact row_iff_operand fun _ hb => by rw [wellFormed_h2Resync_iff, hb]; exact (and_iff_left rfl).symm
  | lenPayload c =>
    exact row_iff_operand fun _ hb => by rw [wellFormed_lenPayload_iff, hb]; exact (and_iff_left rfl).symm
  | lenReject c => exact row_iff_operand fun _ hb => by rw [wellFormed_lenReject_iff, hb]; exact (and_iff_left rfl).symm
  | payMore c =>
    refine row_iff_operand fun hs _ => ?_
    have hlt := h.payload_cursor_lt hs
    rw [fits_payMore_iff, Instr.wellFormed, and_iff_right rfl]
    omega
  | payLast c => exact row_iff_operand fun _ _ => by rw [fits_payLast_iff]; exact (and_iff_right rfl).symm
  | _ => simp [RowApplies, stepOperand]

/-- The row that applies is the one fetched (R51, R52). -/
theorem State.Inv.rowApplies_iff_fetched {s : State} (h : s.Inv) : RowApplies i s b ↔ s.fetched b = i := by
  rw [h.rowApplies_iff, State.fetched, selectTransition_eq_iff]

end Sys2Proof.Machine

/-! ### The statements -/

namespace Sys2Proof.Proofs

open Sys2Proof Sys2Proof.Machine

/-- Settles O5: a transition's word holds its operand, at which it is the one selected; the words of the command rows
and of the requests hold command codes. -/
theorem decodeOfEncodeIsTheInstruction : Obligations.DecodeOfEncodeIsTheInstruction := by
  intro i cursor l hw hf
  cases ho : stepOperand i with
  | some o => exact decode_of_stepOperand ho hw hf
  | none =>
    obtain ⟨c, hc, hd⟩ | ⟨c, rfl⟩ := stepOperand_eq_none ho
    · rw [hc]
      exact congrArg Except.ok (hd hw)
    · exact decodeRequest_code c

/-- Settles O6: by the length of the bytes; two bytes are the word of the state they name and of the transition selected
there, one byte is the word of its command row, five bytes are a command's request. -/
theorem encodeOfDecodeIsTheBytes : Obligations.EncodeOfDecodeIsTheBytes := by
  intro bytes i cursor l h
  unfold decode at h
  split at h
  · next c =>
    cases h
    exact decodeCommand_spec c
  · next hi lo =>
    split at h
    · next st hst =>
      obtain ⟨ho, hw, hf⟩ := selectTransition_eq_iff.mp (Except.ok.inj h)
      exact ⟨(encode_of_stepOperand ho).trans (encodeStep_of_stateOfCode hst), hw, hf⟩
    · cases h
  · next b0 b1 c b3 b4 =>
    obtain ⟨k, rfl, hframe⟩ := decodeRequest_eq_ok h
    exact ⟨hframe, rfl, rfl⟩
  · cases h

/-- Settles O7: in the states of R13 a row's condition says that its instruction is the one fetched. -/
theorem exactlyOneRowApplies : Obligations.ExactlyOneRowApplies := by
  intro s b h
  exact ⟨h.rowApplies_iff_fetched.mpr rfl, fun i hi => (h.rowApplies_iff_fetched.mp hi).symm⟩

/-- Settles O8: each word is decoded. -/
theorem tableWordsDecodeToTheirRows : Obligations.TableWordsDecodeToTheirRows := by
  refine ⟨?_, ?_, ?_, ?_, ?_, ?_, ?_, ?_, ?_, ?_, ?_, ?_, ?_, ?_, ?_⟩ <;> decide

/-- Settles O9: the word of the machine's state decodes to the transition fetched, which is well formed. -/
theorem stepRunsTheDecodedInstruction : Obligations.StepRunsTheDecodedInstruction := by
  intro s b i h
  rw [decode_encodeStep] at h
  have hi : s.fetched b = i := Except.ok.inj h
  obtain ⟨_, hw, _⟩ := selectTransition_eq_iff.mp hi
  exact ⟨hw, step_offer_byte_of_fetched hi⟩

end Sys2Proof.Proofs
end

section
/-! The interpreter's rows with a payload shape (R112, R113, R115, R116, R118, R119): a 16-bit field as a number, what a
row with a length check answers, and from these the statements about the rows. -/

namespace Sys2Proof.Machine

open Sys2Proof

variable (s : State)

/-! ### A 16-bit field (R33) -/

theorem be16_toNat (hi lo : Byte) : (be16 hi lo).toNat = 256 * hi.toNat + lo.toNat := by
  rw [be16, BitVec.toNat_append, ← Nat.shiftLeft_add_eq_or_of_lt lo.isLt, Nat.shiftLeft_eq]
  omega

theorem half_eq_ofNat (i j : Fin 32) : s.half i j = BitVec.ofNat 16 (256 * (s.cell i).toNat + (s.cell j).toNat) := by
  rw [State.half, ← be16_toNat, BitVec.ofNat_toNat, BitVec.setWidth_eq]

/-! ### A row with a length check (R119) -/

/-- The Boolean result of a row: the payload is long enough, or its length is not compared. -/
def longEnough (c : Command) : Bool := decide (minLen c ≤ s.len.toNat) || !Config.interpLenCheck

theorem not_tooShort (c : Command) : (!s.tooShort c) = longEnough s c := by
  rw [State.tooShort, longEnough, Bool.not_and, ← decide_not]
  exact congrArg (· || _) (decide_eq_decide.mpr Nat.not_lt)

/-- The state after a row that wrote `fields` where its length check passed. -/
def afterRow (c : Command) (fields : SensorState) : State :=
  { s with
    sensor := if longEnough s c = true then { fields with unread := true } else s.sensor
    trace := s.trace ++ [.interpResult (longEnough s c)] }

/-- A row with a length check writes its fields and sets `unread` where the check passes, and fails where it does not.
-/
theorem checkedRow_eq (c : Command) (fields : SensorState) :
    (if s.tooShort c then .next s.interpretFailed else .next (s.interpretOk fields) : Result) =
      .next (afterRow s c fields) := by
  rw [afterRow, ← not_tooShort]
  cases s.tooShort c <;> rfl

theorem longEnough_of_le {c : Command} (h : minLen c ≤ s.len.toNat) : longEnough s c = true := by
  rw [longEnough, decide_eq_true h, Bool.true_or]

/-- The record `Measure` writes. -/
def measureFields : SensorState :=
  { s.sensor with
    distance := BitVec.ofNat 16 (256 * (s.cell 4).toNat + (s.cell 5).toNat)
    errorCode := s.cell 6 }

/-- The record `GetFactoryDefaultSettings` writes (D19). -/
def factoryFields : SensorState :=
  { s.sensor with
    offset0 := s.cell 4
    offset1 := s.cell 5
    offset2 := s.cell 6
    offset3 := s.cell 7
    crosstalk := BitVec.ofNat 16 (256 * (s.cell 8).toNat + (s.cell 9).toNat)
    calibration := s.cell 10 }

/-- The record `GetProductInfo` writes. -/
def productFields : SensorState :=
  { s.sensor with productType := s.cell 4, portMode := s.cell 5, firmware := s.cell 6 }

theorem exec_measure : exec .measure s = .next (afterRow s .measure (measureFields s)) := by
  show execMeasure s = _
  rw [execMeasure, half_eq_ofNat]
  exact checkedRow_eq s .measure _

theorem exec_getFactoryDefaultSettings :
    exec .getFactoryDefaultSettings s = .next (afterRow s .getFactoryDefaultSettings (factoryFields s)) := by
  show execGetFactoryDefaultSettings s = _
  rw [execGetFactoryDefaultSettings, half_eq_ofNat]
  exact checkedRow_eq s .getFactoryDefaultSettings _

theorem exec_getProductInfo :
    exec .getProductInfo s = .next (afterRow s .getProductInfo (productFields s)) :=
  checkedRow_eq s .getProductInfo _

/-! ### The row of the stored command byte (R112) -/

theorem interpret_eq_exec : interpret s = exec (decodeCommand (s.cell 2)) s := by
  have hcell : s.cell commandIndex = s.cell 2 := rfl
  unfold interpret decodeCommand
  rw [hcell]
  cases commandOfCode (s.cell 2) with
  | none => rfl
  | some c => cases c <;> rfl

end Sys2Proof.Machine

/-! ### The statements -/

namespace Sys2Proof.Proofs

open Sys2Proof Sys2Proof.Machine

/-- Settles O43: both select the row by the command the byte in cell 2 is the wire value of. -/
theorem interpreterRunsTheCommandRow : Obligations.InterpreterRunsTheCommandRow := interpret_eq_exec

/-- Settles O44: `Measure` is a row with a length check, and its 16-bit field is the number of its two cells. -/
theorem measureWritesDistanceAndErrorCode : Obligations.MeasureWritesDistanceAndErrorCode :=
  fun s => ⟨_, _, exec_measure s, rfl, rfl⟩

/-- Settles O46: `GetFactoryDefaultSettings` is a row with a length check, and its 16-bit field is the number of its two
cells. -/
theorem factorySettingsAreWritten : Obligations.FactorySettingsAreWritten :=
  fun s => ⟨_, _, exec_getFactoryDefaultSettings s, rfl, rfl⟩

/-- Settles O47: `GetProductInfo` is a row with a length check. -/
theorem productInfoIsWritten : Obligations.ProductInfoIsWritten :=
  fun s => ⟨_, _, exec_getProductInfo s, rfl, rfl⟩

/-- Settles O52: the two bytes of a 16-bit field, the lower-indexed one first. -/
theorem halfIsBigEndian : Obligations.HalfIsBigEndian := fun s i j => be16_toNat (s.cell i) (s.cell j)

end Sys2Proof.Proofs
end

section
/-! What moves the machine besides a byte: reset and boot (R19, R161, R162), the consumer (R120, R121), the sender
(R125) and the machine with no input pending (R150). -/

namespace Sys2Proof.Machine

open Sys2Proof

/-- With no cell written every cell reads as `BUF_INIT` (R19, R176). -/
theorem cell_of_buf_nil {s : State} (h : s.buf = []) (i : Fin 32) : s.cell i = Config.bufInit s.epoch i.val := by
  simp only [State.cell, h, Memory.cell?]

/-- In `AwaitingHeader1` with the cursor at 0 the invariant asks for the canonical form alone: no cell belongs to a
frame in progress. -/
theorem inv_of_awaitingHeader1 {s : State} (hs : s.state = .awaitingHeader1) (hc : s.cursor.val = 0)
    (hwf : Memory.wf s.buf = true) : s.Inv where
  canonical := hwf
  tied := by rw [State.Tied, hs]; exact hc
  written := fun i hi => absurd hi (hc ▸ Nat.not_lt_zero _)
  armedAfterBoot := fun _ => hs

/-- Reset, boot and a byte: the parser awaits a first header byte, so the byte has its step whatever it is. -/
theorem step_offer_byte_of_awaitingHeader1 {s : State} (b : Byte) (ha : s.armed = true)
    (hs : s.state = .awaitingHeader1) : ∃ t, step (s.offer (.byte b)) = .next t ∧ t.armed = true := by
  by_cases hb : b = Config.header1
  · subst hb
    exact ⟨_, (step_offer_byte_of_fetched (fetched_header1 s hs)).trans (exec_h1Match_next s ha), rfl⟩
  · exact ⟨_, (step_offer_byte_of_fetched (fetched_notHeader1 s b hs hb)).trans (exec_h1Ignore_next s b ha), rfl⟩

end Sys2Proof.Machine

/-! ### The statements -/

namespace Sys2Proof.Proofs

open Sys2Proof Sys2Proof.Machine

/-- Settles O1: the values stand in `State.reset` and in the configuration, and no cell is written. -/
theorem resetLeavesTheStatedValues : Obligations.ResetLeavesTheStatedValues :=
  ⟨rfl, rfl, rfl, cell_of_buf_nil rfl,
    rfl, rfl, rfl, rfl, rfl, rfl, rfl, rfl, rfl, rfl, rfl, rfl, rfl, rfl, rfl, rfl, rfl⟩

/-- Settles O2: reset and boot leave the parser in `AwaitingHeader1` with the cursor at 0 and no cell written. -/
theorem resetSatisfiesInvariant : Obligations.ResetSatisfiesInvariant :=
  ⟨inv_of_awaitingHeader1 rfl rfl wf_nil, inv_of_awaitingHeader1 rfl rfl wf_nil, rfl, rfl⟩

/-- Settles O3: the reset input answers the state `applyReset` gives, which has no cell written. -/
theorem resetAssertRestoresEveryItem : Obligations.ResetAssertRestoresEveryItem :=
  fun s => ⟨s.applyReset, step_offer_resetAssert s, rfl, rfl, rfl, rfl, cell_of_buf_nil rfl, (List.append_nil _).symm,
    rfl, rfl, rfl⟩

/-- Settles O4: after reset and boot the parser is armed in `AwaitingHeader1`, where every byte has its step. -/
theorem bootArmsAndFirstByteRuns : Obligations.BootArmsAndFirstByteRuns := by
  intro s
  refine ⟨step_offer_resetRelease s, fun b => ?_⟩
  obtain ⟨t, ht, ha⟩ := step_offer_byte_of_awaitingHeader1 (s := s.applyReset.boot) b rfl rfl
  refine ⟨t, ?_, ha⟩
  calc runSteps 3 (((s.offer (.byte b)).offer .resetRelease).offer .resetAssert)
      = runSteps 1 (s.applyReset.boot.offer (.byte b)) := rfl
    _ = .next t := by rw [runSteps_succ, ht, andThen_next, runSteps_zero]

/-- Settles O31: an idle step leaves the state as it is, and so does any number of them. -/
theorem partialFrameWaitsForEver : Obligations.PartialFrameWaitsForEver := by
  intro s k hidle
  induction k with
  | zero => exact runSteps_zero s
  | succ k ih => rw [runSteps_succ, step_idle s hidle, andThen_next, ih]

/-- Settles O40: each operation answers the state its own update gives, which writes the results, the sent frames or the
unread flag. -/
theorem normalContextLeavesTheParserAlone : Obligations.NormalContextLeavesTheParserAlone := by
  rintro s x (rfl | ⟨f, rfl⟩ | ⟨c, rfl⟩)
  · exact ⟨_, step_offer_takeUnread s, rfl, rfl, rfl, rfl, rfl, rfl, rfl, rfl⟩
  · exact ⟨_, step_offer_read s f, rfl, rfl, rfl, rfl, rfl, rfl, rfl, rfl⟩
  · exact ⟨_, step_offer_send s c, rfl, rfl, rfl, rfl, rfl, rfl, rfl, rfl⟩

/-- Settles O49: a send runs the encoder, which hands over the frame with the command's wire value. -/
theorem requestIsFiveBytes : Obligations.RequestIsFiveBytes := by
  intro s c
  refine ⟨step_offer_send s c, ?_⟩
  cases c <;> rfl

/-- Settles O50: an accessor's step appends the field it names to the results. -/
theorem accessorsReturnTheStoredValue : Obligations.AccessorsReturnTheStoredValue :=
  fun s => ⟨step_offer_read s .distance, step_offer_read s .port, step_offer_read s .firmware,
    step_offer_read s .calibration⟩

/-- Settles O51: the first call returns the flag and clears it, so the second finds it clear. -/
theorem takeUnreadReturnsTheFlagOnce : Obligations.TakeUnreadReturnsTheFlagOnce :=
  fun s => ⟨s.takeUnreadFlag, step_offer_takeUnread s, rfl, step_offer_takeUnread s.takeUnreadFlag⟩

end Sys2Proof.Proofs
end

section
/-! What surrounds a transition (R52, R95, R107, R144, R170): the two resynchronizing transitions, the dispatch, the
events of every byte's step in four kinds, and from these the statements about one byte's step. -/

namespace Sys2Proof.Machine

open Sys2Proof

/-! ### The resynchronizing transitions (R73, R83, R144) -/

theorem fetched_notHeader2 (s : State) (b : Byte) (hs : s.state = .awaitingHeader2) (hb : b ≠ Config.header2) :
    s.fetched b = .h2Resync b := by
  have hb : ¬ header2OK b = true := mt (header2OK_iff b).mp hb
  simp only [State.fetched, selectTransition, hs, if_neg hb]

theorem fetched_oversizeLength (s : State) (b : Byte) (hs : s.state = .awaitingLength) (h28 : 28 ≤ b.toNat) :
    s.fetched b = .lenReject b := by
  have hok : ¬ lengthOK b = true := by rw [lengthOK_iff]; omega
  have hne : b ≠ 0 := by rintro rfl; exact hok lengthOK_zero
  simp only [State.fetched, selectTransition, hs, if_neg hne, if_neg hok]

theorem fetched_trailer (s : State) (b : Byte) (hs : s.state = .awaitingEnd) : s.fetched b = .endDispatch b := by
  simp only [State.fetched, selectTransition, hs]

variable (s : State) (b : Byte)

theorem exec_h2Resync_next (h : s.armed = true) :
    exec (.h2Resync b) s = .next (s.disarm.resync .badHeader2).rearm := execH2Resync_next s b h

theorem exec_lenReject_next (h : s.armed = true) (hc : s.cursor.val < 32) :
    exec (.lenReject b) s = .next ((stored s b hc).resync .oversizeLength).rearm := execLenReject_next s b h hc

/-! ### The store at the cursor and the dispatch (R31, R93) -/

theorem stored_storesOnly (i : Fin 32) (hi : s.cursor.val = i.val) (hc : s.cursor.val < 32) :
    StoresOnly s (stored s b hc) i b := by
  obtain rfl : i = ⟨s.cursor.val, hc⟩ := Fin.ext hi.symm
  intro a
  exact write_cell s _ a b

theorem store_disarm_full (hc : s.cursor.val = 32) : store b s.disarm = .fault (.storeOutOfRange 32) := by
  have hfull : ¬ s.disarm.cursor.val < 32 := hc.not_lt
  rw [store_full b s.disarm hfull, disarm_cursor, hc]

/-- A transition's fault is the step's: nothing is re-armed after it. -/
theorem receive_fault {t : State → Result} {e : Fault} (ha : s.armed = true) (h : t s.disarm = .fault e) :
    receive t s = .fault e := by
  rw [receive_armed _ _ ha, h, andThen_fault]

/-- T11 runs the interpreter where the trailer is stored and the dispatch emitted, and clears and re-arms what it
answers (R92, R94). -/
theorem exec_endDispatch_eq (ha : s.armed = true) (hc : s.cursor.val < 32) :
    exec (.endDispatch b) s = andThen (interpret (atDispatch s b hc)) (fun u => .next u.clear.rearm) :=
  execEndDispatch_eq s b ha hc

/-- T8 stores before it resynchronizes (D10). -/
theorem stored_resync_events (cause : ResyncCause) (i : Fin 32) (hi : s.cursor.val = i.val) (hc : s.cursor.val < 32) :
    EventsOf s ((stored s b hc).resync cause).rearm [.stored i b, .resync cause, .rearm] := by
  obtain rfl : i = ⟨s.cursor.val, hc⟩ := Fin.ext hi.symm
  simp [EventsOf, stored]

theorem atDispatch_storesOnly (i : Fin 32) (hi : s.cursor.val = i.val) (hc : s.cursor.val < 32) :
    StoresOnly s (atDispatch s b hc) i b := stored_storesOnly s b i hi hc

theorem atDispatch_events (i : Fin 32) (hi : s.cursor.val = i.val) (hc : s.cursor.val < 32) :
    EventsOf s (atDispatch s b hc)
      [.stored i b, .dispatch (s.cursor.val + 1) (atDispatch s b hc).snapshot (b == Config.endMarker)] := by
  obtain rfl : i = ⟨s.cursor.val, hc⟩ := Fin.ext hi.symm
  exact List.append_assoc _ [_] [_]

theorem atDispatch_sameRest (hc : s.cursor.val < 32) : SameRest s (atDispatch s b hc) := ⟨rfl, rfl, rfl, rfl, rfl⟩

/-- The cursor while a trailer is awaited (R13): the frame's header, its command, its length and its payload. -/
theorem State.Inv.cursor_of_awaitingEnd {s : State} (h : s.Inv) (hs : s.state = .awaitingEnd) :
    s.cursor.val = 4 + s.len.toNat := by
  have tied := h.tied
  simp only [State.Tied, hs] at tied
  exact tied.left

/-! ### The events of a byte's step (R107) -/

theorem EventsOf.unique {s t : State} {evs evs' : List Event} (h : EventsOf s t evs) (h' : EventsOf s t evs') :
    evs = evs' := List.append_cancel_left (h.symm.trans h')

/-- An event that is no part of a resynchronization, of a dispatch or of the re-arm: `Ignored` or `Stored`. -/
def Event.isQuiet (e : Event) : Bool :=
  match e with
  | .ignored _ => true
  | .stored _ _ => true
  | _ => false

/-- The byte is one that a parser in this state resynchronizes on: a bad second header byte (R73). -/
abbrev BadHeader2 : Prop := s.state = .awaitingHeader2 ∧ b ≠ Config.header2

/-- The byte is one that a parser in this state resynchronizes on: an oversize length (R83). -/
abbrev OversizeLength : Prop := s.state = .awaitingLength ∧ 28 ≤ b.toNat

/-- The events of a byte's step, with what the step does besides: one event and the re-arm, one of the two
resynchronizations, or the dispatch with the interpreter's result. -/
inductive StepEvents (t : State) : List Event → Prop
  | quiet (e : Event) (he : e.isQuiet = true) (hend : s.state ≠ .awaitingEnd) (hbad : ¬ BadHeader2 s b)
      (hlen : ¬ OversizeLength s b) (hsensor : t.sensor = s.sensor) : StepEvents t [e, .rearm]
  | badHeader2 (h : BadHeader2 s b) (ht : t = (s.disarm.resync .badHeader2).rearm) :
      StepEvents t [.resync .badHeader2, .rearm]
  | oversizeLength (h : OversizeLength s b) (hc : s.cursor.val < 32)
      (ht : t = ((stored s b hc).resync .oversizeLength).rearm) :
      StepEvents t [.stored ⟨s.cursor.val, hc⟩ b, .resync .oversizeLength, .rearm]
  | dispatch (hs : s.state = .awaitingEnd) (hc : s.cursor.val < 32) (r : SensorState) (ok : Bool)
      (hfail : ok = false → r = s.sensor) (hdone : ok = true → r.unread = true)
      (hi : interpret (atDispatch s b hc) = .next { atDispatch s b hc with
        sensor := r, trace := (atDispatch s b hc).trace ++ [.interpResult ok] })
      (ht : t = afterDispatch s b hc r ok) :
      StepEvents t [.stored ⟨s.cursor.val, hc⟩ b,
        .dispatch (s.cursor.val + 1) (stored s b hc).snapshot (endOK b), .interpResult ok, .rearm]

variable {s : State} {b : Byte} {t : State}

theorem state_ne {st st' : ParserState} (hs : s.state = st) (hst : st ≠ st') : s.state ≠ st' := hs ▸ hst

theorem not_badHeader2_of_state {st : ParserState} (hs : s.state = st) (hst : st ≠ .awaitingHeader2) :
    ¬ BadHeader2 s b := fun h => hst (hs.symm.trans h.left)

theorem not_oversizeLength_of_state {st : ParserState} (hs : s.state = st) (hst : st ≠ .awaitingLength) :
    ¬ OversizeLength s b := fun h => hst (hs.symm.trans h.left)

/-- One event and the re-arm, in a parser state with neither a trailer nor a byte to resynchronize on. -/
theorem quietEvents {e : Event} {st : ParserState} (hs : s.state = st) (he : e.isQuiet = true)
    (hst : st ≠ .awaitingEnd) (hbad : ¬ BadHeader2 s b) (hlen : ¬ OversizeLength s b)
    (ht : t.trace = s.trace ++ [e] ++ [.rearm]) (hsensor : t.sensor = s.sensor) :
    ∃ evs, EventsOf s t evs ∧ StepEvents s b t evs :=
  ⟨_, ht.trans (List.append_assoc _ [e] [_]), .quiet e he (hs ▸ hst) hbad hlen hsensor⟩

theorem ByteStep.events (h : ByteStep s b t) : ∃ evs, EventsOf s t evs ∧ StepEvents s b t evs := by
  cases h with
  | h1Match hs hb ht | h1Ignore hs hb ht =>
    subst ht
    exact quietEvents hs rfl (by decide) (not_badHeader2_of_state hs (by decide))
      (not_oversizeLength_of_state hs (by decide)) rfl rfl
  | h2Match hs hb ht =>
    subst ht
    exact quietEvents hs rfl (by decide) (fun h => h.right hb) (not_oversizeLength_of_state hs (by decide)) rfl rfl
  | h2Resync hs hb ht =>
    subst ht
    exact ⟨_, List.append_assoc _ [_] [_], .badHeader2 ⟨hs, hb⟩ rfl⟩
  | cmdStore hs hc ht | payMore hs hl hc ht | payLast hs hl hc ht =>
    subst ht
    exact quietEvents hs rfl (by decide) (not_badHeader2_of_state hs (by decide))
      (not_oversizeLength_of_state hs (by decide)) rfl rfl
  | lenPayload hs hb hc ht =>
    subst ht
    exact quietEvents hs rfl (by decide) (not_badHeader2_of_state hs (by decide))
      (fun h => absurd (hb.right.trans_lt h.right) (lt_irrefl _)) rfl rfl
  | lenEmpty hs hb hc ht =>
    subst ht
    exact quietEvents hs rfl (by decide) (not_badHeader2_of_state hs (by decide))
      (fun h => by rw [OversizeLength, hb] at h; exact absurd h.right (by decide)) rfl rfl
  | lenReject hs hb hc ht =>
    subst ht
    exact ⟨_, stored_resync_events s b _ _ rfl hc, .oversizeLength ⟨hs, hb⟩ hc rfl⟩
  | endDispatch hs hc r ok hfail hdone hi ht =>
    subst ht
    exact ⟨_, rfl, .dispatch hs hc r ok hfail hdone hi rfl⟩

theorem ByteStep.armed (h : ByteStep s b t) (ha : s.armed = true) : t.armed = true := by
  cases h with
  | endDispatch hs hc r ok hfail hdone hi ht => rw [ht]; exact ha
  | _ => subst_vars; rfl

/-- What the events of a byte's step are (R107). -/
theorem stepEvents_of_next (h : step (s.offer (.byte b)) = .next t) {evs : List Event} (he : EventsOf s t evs) :
    StepEvents s b t evs := by
  obtain ⟨_, hstep⟩ := byteStep_of_next s t b h
  obtain ⟨evs', he', hevs⟩ := hstep.events
  rwa [he.unique he']

theorem armed_of_next (h : step (s.offer (.byte b)) = .next t) : t.armed = true := by
  obtain ⟨ha, hstep⟩ := byteStep_of_next s t b h
  exact hstep.armed ha

/-! ### What the kinds of events say -/

/-- An event of the first kind is none of the others. -/
theorem Event.isQuiet_spec {e : Event} (h : e.isQuiet = true) :
    e.isDispatch = false ∧ e.isResync = false ∧ e ≠ .rearm ∧ e ≠ .interpResult true ∧
      dispPort [e, .rearm] = none ∧ resyncPort [e, .rearm] = none := by
  cases e with
  | ignored b | stored i b => exact ⟨rfl, rfl, nofun, nofun, rfl, rfl⟩
  | _ => cases h

theorem noDispatch_cons {e : Event} {evs : List Event} :
    NoDispatch (e :: evs) ↔ e.isDispatch = false ∧ NoDispatch evs := List.forall_mem_cons

theorem noResync_cons {e : Event} {evs : List Event} :
    NoResync (e :: evs) ↔ e.isResync = false ∧ NoResync evs := List.forall_mem_cons

theorem noDispatch_iff {evs : List Event} : NoDispatch evs ↔ evs.countP Event.isDispatch = 0 := by
  rw [List.countP_eq_zero]
  exact forall₂_congr fun e _ => Bool.not_eq_true (Event.isDispatch e) ▸ Iff.rfl

theorem noResync_iff {evs : List Event} : NoResync evs ↔ evs.countP Event.isResync = 0 := by
  rw [List.countP_eq_zero]
  exact forall₂_congr fun e _ => Bool.not_eq_true (Event.isResync e) ▸ Iff.rfl

theorem NoDispatch.append {evs evs' : List Event} (h : NoDispatch evs) (h' : NoDispatch evs') :
    NoDispatch (evs ++ evs') := List.forall_mem_append.mpr ⟨h, h'⟩

theorem NoResync.append {evs evs' : List Event} (h : NoResync evs) (h' : NoResync evs') : NoResync (evs ++ evs') :=
  List.forall_mem_append.mpr ⟨h, h'⟩

/-! ### The snapshot of a dispatch (R93, R104) -/

theorem frameByte?_snapshot (s : State) (i : Fin 32) : frameByte? s.snapshot i.val = some (s.cell i) := snapshot_get s i

/-- What the invariant says of the frame at its trailer: the header bytes and a legal length (R13). -/
theorem State.Inv.frame_of_awaitingEnd {s : State} (h : s.Inv) (hs : s.state = .awaitingEnd) :
    s.len.toNat ≤ 27 ∧ s.cell 0 = Config.header1 ∧ s.cell 1 = Config.header2 := by
  have tied := h.tied
  simp only [State.Tied, hs] at tied
  exact tied.right

/-- A cell of the frame before the cursor reads in the snapshot as before the trailer was stored. -/
theorem stored_snapshot_of_lt (hc : s.cursor.val < 32) (i : Fin 32) (hi : i.val < s.cursor.val) :
    frameByte? (stored s b hc).snapshot i.val = some (s.cell i) := by
  rw [frameByte?_snapshot, stored_storesOnly s b ⟨s.cursor.val, hc⟩ rfl hc i, if_neg]
  rintro rfl
  exact lt_irrefl _ hi

/-- The cell at the cursor reads in the snapshot as the trailer. -/
theorem stored_snapshot_at (hc : s.cursor.val < 32) : frameByte? (stored s b hc).snapshot s.cursor.val = some b := by
  rw [frameByte?_snapshot _ ⟨s.cursor.val, hc⟩, stored_storesOnly s b ⟨s.cursor.val, hc⟩ rfl hc, if_pos rfl]

/-- The frame handed over at a trailer has its header bytes, a legal length and the size that the length says, and is
valid exactly when its trailer is (R103, R104). -/
theorem State.Inv.dispatched_frame (h : s.Inv) (hs : s.state = .awaitingEnd) (hc : s.cursor.val < 32) :
    headerOK (stored s b hc).snapshot = true ∧ frameByte? (stored s b hc).snapshot 3 = some s.len ∧
      frameValid (stored s b hc).snapshot (s.cursor.val + 1) = endOK b := by
  have hcursor := h.cursor_of_awaitingEnd hs
  obtain ⟨hlen, h0, h1⟩ := h.frame_of_awaitingEnd hs
  have hcell (i : Fin 32) (hi : i.val < 4) : frameByte? (stored s b hc).snapshot i.val = some (s.cell i) :=
    stored_snapshot_of_lt hc i (by omega)
  have hb0 : frameByte? (stored s b hc).snapshot 0 = some Config.header1 := h0 ▸ hcell 0 (by decide)
  have hb1 : frameByte? (stored s b hc).snapshot 1 = some Config.header2 := h1 ▸ hcell 1 (by decide)
  have hb3 : frameByte? (stored s b hc).snapshot 3 = some s.len := hcell 3 (by decide)
  have hheader : headerOK (stored s b hc).snapshot = true := by
    rw [headerOK, hb0, hb1]
    rfl
  have hlength : frameLengthOK (stored s b hc).snapshot (s.cursor.val + 1) = true := by
    have hsize : s.cursor.val + 1 = s.len.toNat + Config.overhead := by
      rw [hcursor, Nat.add_right_comm, Nat.add_comm]
      rfl
    rw [frameLengthOK, hb3, hsize]
    exact (Bool.and_eq_true _ _).mpr ⟨(lengthOK_iff s.len).mpr hlen, beq_self_eq_true _⟩
  refine ⟨hheader, hb3, ?_⟩
  rw [frameValid, hheader, hlength, Nat.add_sub_cancel, stored_snapshot_at hc]
  rfl

end Sys2Proof.Machine

/-! ### The statements -/

namespace Sys2Proof.Proofs

open Sys2Proof Sys2Proof.Machine

/-- Settles O13: a byte other than `HEADER2` fetches T4, which resynchronizes and stores nothing. -/
theorem badSecondHeaderResynchronizes : Obligations.BadSecondHeaderResynchronizes := by
  intro s b ha hs hb
  exact ⟨step_offer_byte_of_fetched (fetched_notHeader2 s b hs hb), _, exec_h2Resync_next s b ha, rfl, rfl,
    fun _ => rfl, rfl, List.append_assoc _ [_] [_], ⟨rfl, rfl, rfl, rfl, rfl⟩⟩

/-- Settles O17: a length above 27 fetches T8, which stores it at the length's cell, where the invariant has the cursor,
and then resynchronizes. -/
theorem oversizeLengthResynchronizes : Obligations.OversizeLengthResynchronizes := by
  intro s b hinv ha hs h28
  have hi : s.cursor.val = lengthIndex.val := hinv.cursor_of_awaitingLength hs
  have hc : s.cursor.val < 32 := hi ▸ lengthIndex.isLt
  exact ⟨step_offer_byte_of_fetched (fetched_oversizeLength s b hs h28), _, exec_lenReject_next s b ha hc, rfl, rfl,
    stored_storesOnly s b 3 hi hc, rfl, stored_resync_events s b _ 3 hi hc, ⟨rfl, rfl, rfl, rfl, rfl⟩⟩

/-- Settles O20: the machine as the interpreter finds it is `atDispatch`; T11 clears and re-arms the state the
interpreter answers. -/
theorem trailerIsStoredAndFrameDispatched : Obligations.TrailerIsStoredAndFrameDispatched := by
  intro s b hinv ha hs
  have hc : s.cursor.val < 32 := Nat.lt_succ_of_le hinv.cursor_le
  have hcursor : s.cursor.val = 4 + s.len.toNat := hinv.cursor_of_awaitingEnd hs
  have hsize : s.cursor.val + 1 = 5 + s.len.toNat := by omega
  obtain ⟨r, ok, hu, _⟩ := interpret_next (atDispatch s b hc)
  refine ⟨step_offer_byte_of_fetched (fetched_trailer s b hs), atDispatch s b hc, _, hinv.cursorCell, hcursor,
    atDispatch_storesOnly s b _ rfl hc, hsize, hs, rfl, atDispatch_sameRest s b hc, ?_, hu, ?_⟩
  · rw [← hsize]
    exact atDispatch_events s b _ rfl hc
  · rw [exec_endDispatch_eq s b ha hc, hu]
    rfl

/-- Settles O21: whatever transition the byte selects, its meaning starts with the armed reception. -/
theorem byteWhileNotArmedIsRefused : Obligations.ByteWhileNotArmedIsRefused :=
  fun s b ha => step_offer_byte_not_armed s b ha

/-- Settles O22: the events of every kind end with the re-arm, and none before it is one. -/
theorem everyByteStepEndsWithTheRearm : Obligations.EveryByteStepEndsWithTheRearm := by
  intro s t b h
  refine ⟨armed_of_next h, ?_⟩
  obtain ⟨_, hstep⟩ := byteStep_of_next s t b h
  obtain ⟨evs, he, hevs⟩ := hstep.events
  cases hevs with
  | quiet e hq =>
    obtain ⟨_, _, hne, _⟩ := Event.isQuiet_spec hq
    exact ⟨[e], he, by simpa using hne.symm⟩
  | badHeader2 => exact ⟨[_], he, by simp⟩
  | oversizeLength => exact ⟨[_, _], he, by simp⟩
  | dispatch => exact ⟨[_, _, _], he, by simp⟩

/-- Settles O23: each of the seven stores first, at the cursor, which the capacity leaves no cell. -/
theorem storeAtTheCapacityFaults : Obligations.StoreAtTheCapacityFaults := by
  intro s b ha hc i hi
  have hfull (c : Byte) : store c s.disarm = .fault (.storeOutOfRange 32) := store_disarm_full s c hc
  have first (c : Byte) (f : State → Result) :
      receive (fun u => andThen (store c u) f) s = .fault (.storeOutOfRange 32) :=
    receive_fault s ha (congrArg (andThen · f) (hfull c))
  simp only [List.mem_cons, List.not_mem_nil, or_false] at hi
  obtain rfl | rfl | rfl | rfl | rfl | rfl | rfl := hi
  · exact first b _
  · exact first b _
  · exact first 0 _
  · exact first b _
  · exact receive_fault s ha (hfull b)
  · exact first b _
  · exact first b _

/-- Settles O24: by the kinds of events; a dispatch is of the last kind alone, a resynchronization of the two before
it. -/
theorem resyncAndDispatchExcludeEachOther : Obligations.ResyncAndDispatchExcludeEachOther := by
  intro s t b evs h he
  cases stepEvents_of_next h he with
  | quiet e hq =>
    obtain ⟨hd, hr, _⟩ := Event.isQuiet_spec hq
    have noD : NoDispatch [e, .rearm] := noDispatch_cons.mpr ⟨hd, noDispatch_iff.mpr rfl⟩
    have noR : NoResync [e, .rearm] := noResync_cons.mpr ⟨hr, noResync_iff.mpr rfl⟩
    exact ⟨(noResync_iff.mp noR).trans_le zero_le_one, (noDispatch_iff.mp noD).trans_le zero_le_one,
      fun hd => absurd noD hd, fun hr => absurd noR hr⟩
  | badHeader2 hbad ht =>
    subst ht
    have noD : NoDispatch [.resync .badHeader2, .rearm] := noDispatch_iff.mpr rfl
    exact ⟨le_rfl, zero_le_one, fun hd => absurd noD hd, fun _ => ⟨.inl hbad.left, noD, rfl, rfl, rfl⟩⟩
  | oversizeLength hlen hc ht =>
    subst ht
    have noD : NoDispatch [.stored ⟨s.cursor.val, hc⟩ b, .resync .oversizeLength, .rearm] := noDispatch_iff.mpr rfl
    exact ⟨le_rfl, zero_le_one, fun hd => absurd noD hd, fun _ => ⟨.inr hlen.left, noD, rfl, rfl, rfl⟩⟩
  | dispatch hs =>
    exact ⟨zero_le_one, le_rfl, fun _ => ⟨hs, noResync_iff.mpr rfl⟩, fun hr => absurd (noResync_iff.mpr rfl) hr⟩

/-- Settles O25: only the last kind of events has a dispatch, and its snapshot is the stored frame with its trailer. -/
theorem everyDispatchHasAValidHeaderAndLength : Obligations.EveryDispatchHasAValidHeaderAndLength := by
  intro s t b evs size snap ok hinv h he hmem
  cases stepEvents_of_next h he with
  | quiet e hq =>
    obtain ⟨hd, _⟩ := Event.isQuiet_spec hq
    simp only [List.mem_cons, List.not_mem_nil, or_false, reduceCtorEq] at hmem
    rw [← hmem] at hd
    cases hd
  | badHeader2 => simp at hmem
  | oversizeLength => simp at hmem
  | dispatch hs hc =>
    simp only [List.mem_cons, List.not_mem_nil, or_false, reduceCtorEq, false_or, Event.dispatch.injEq] at hmem
    obtain ⟨rfl, rfl, rfl⟩ := hmem
    have hcursor := hinv.cursor_of_awaitingEnd hs
    obtain ⟨hlen, _⟩ := hinv.frame_of_awaitingEnd hs
    obtain ⟨hheader, hlength, hvalid⟩ := hinv.dispatched_frame (b := b) hs hc
    exact ⟨hheader, ⟨s.len, hlength, (lengthOK_iff s.len).mpr hlen, by omega⟩, by omega, by omega, hvalid⟩

/-- Settles O26: the strobes are there for the events that qualify them, which the kinds of events name by the parser
state and the byte. -/
theorem portsShowTheStepAndItsEvents : Obligations.PortsShowTheStepAndItsEvents := by
  intro s t b evs hinv h he
  have hcursor : t.cursor.val % 2 ^ 6 = t.cursor.val := Nat.mod_eq_of_lt (t.cursor.isLt.trans (by decide))
  refine ⟨armed_of_next h, rfl, (BitVec.toNat_ofNat _ _).trans hcursor, ?_⟩
  show dispPort evs = _ ∧ resyncPort evs = (if BadHeader2 s b then _ else if OversizeLength s b then _ else _)
  cases stepEvents_of_next h he with
  | quiet e hq hend hbad hlen =>
    obtain ⟨_, _, _, _, hdisp, hresync⟩ := Event.isQuiet_spec hq
    rw [hdisp, hresync, if_neg hend, if_neg hbad, if_neg hlen]
    exact ⟨rfl, rfl⟩
  | badHeader2 hbad ht =>
    rw [if_neg (state_ne hbad.left (by decide)), if_pos hbad]
    exact ⟨rfl, rfl⟩
  | oversizeLength hlen hc ht =>
    rw [if_neg (state_ne hlen.left (by decide)), if_neg (not_badHeader2_of_state hlen.left (by decide)), if_pos hlen]
    exact ⟨rfl, rfl⟩
  | dispatch hs =>
    have hsize : s.cursor.val + 1 = s.len.toNat + 5 := by rw [hinv.cursor_of_awaitingEnd hs]; omega
    rw [if_pos hs, if_neg (not_badHeader2_of_state hs (by decide)), if_neg (not_oversizeLength_of_state hs (by decide)),
      ← hsize]
    exact ⟨rfl, rfl⟩

end Sys2Proof.Proofs
end

section
/-! The invariant of R13 across a byte: from a state of the invariant a byte either is stored at the cursor, which
advances, or leaves the parser hunting. From these two moves the statements that every step keeps the invariant and that
stale cells never steer the parser. -/

namespace Sys2Proof.Machine

open Sys2Proof

/-! ### The two moves -/

/-- The parser state that a transition which stores its byte and goes on with the frame leads to; T2, T4, T8 and T11,
which leave the parser hunting, have none. -/
def storeTarget (i : Instr) : Option ParserState :=
  match i with
  | .h1Match => some .awaitingHeader2
  | .h2Match => some .awaitingCommand
  | .cmdStore _ => some .awaitingLength
  | .lenPayload _ => some .awaitingPayload
  | .lenEmpty => some .awaitingEnd
  | .payMore _ => some .awaitingPayload
  | .payLast _ => some .awaitingEnd
  | _ => none

/-- The parser hunts from the start of the buffer. -/
structure Cleared (t : State) : Prop where
  state : t.state = .awaitingHeader1
  cursor : t.cursor = 0
  armed : t.armed = true

/-- The state after the byte `b` was stored at the cursor of a state of the invariant and the parser awaits what `st`
awaits. -/
def State.Inv.afterByte {s : State} (h : s.Inv) (b : Byte) (st : ParserState) : State :=
  afterStore s h.cursorCell b h.cursorCell.succ st

variable {s : State} {b : Byte} {st : ParserState}

theorem State.Inv.cursor_of_awaitingHeader1 (h : s.Inv) (hs : s.state = .awaitingHeader1) : s.cursor.val = 0 := by
  have tied := h.tied
  simp only [State.Tied, hs] at tied
  exact tied

theorem State.Inv.cursor_of_awaitingHeader2 (h : s.Inv) (hs : s.state = .awaitingHeader2) : s.cursor.val = 1 := by
  have tied := h.tied
  simp only [State.Tied, hs] at tied
  exact tied.left

/-- The operand of the transition fetched. -/
theorem operand_of_fetched {i : Instr} (h : s.fetched b = i) : stepOperand i = some (s.state, b) :=
  (selectTransition_eq_iff.mp h).left

/-- A storing transition of a state of the invariant stores the byte at the cursor. -/
theorem State.Inv.step_storing (h : s.Inv) (ha : s.armed = true) (hst : storeTarget (s.fetched b) = some st) :
    step (s.offer (.byte b)) = .next (h.afterByte b st) := by
  rw [step_offer_byte]
  generalize hi : s.fetched b = i at hst ⊢
  have ho := operand_of_fetched hi
  cases i with
  | h1Match =>
    cases hst
    obtain ⟨hs, rfl⟩ := operand_eq_iff.mp ho
    have hcell : h.cursorCell = 0 := Fin.ext (h.cursor_of_awaitingHeader1 hs)
    rw [State.Inv.afterByte, hcell]
    exact exec_h1Match_next s ha
  | h2Match =>
    cases hst
    obtain ⟨hs, rfl⟩ := operand_eq_iff.mp ho
    have hcell : h.cursorCell = 1 := Fin.ext (h.cursor_of_awaitingHeader2 hs)
    rw [State.Inv.afterByte, hcell]
    exact exec_h2Match_next s ha
  | cmdStore c =>
    cases hst
    obtain ⟨_, rfl⟩ := operand_eq_iff.mp ho
    exact exec_cmdStore_next s h.cursorCell c ha rfl
  | lenPayload c =>
    cases hst
    obtain ⟨_, rfl⟩ := operand_eq_iff.mp ho
    exact exec_lenPayload_next s h.cursorCell c ha rfl
  | lenEmpty =>
    cases hst
    obtain ⟨_, rfl⟩ := operand_eq_iff.mp ho
    exact exec_lenEmpty_next s h.cursorCell ha rfl
  | payMore c =>
    cases hst
    obtain ⟨hs, rfl⟩ := operand_eq_iff.mp ho
    rw [State.Inv.afterByte, ← hs]
    exact exec_payMore_next s h.cursorCell c ha rfl
  | payLast c =>
    cases hst
    obtain ⟨_, rfl⟩ := operand_eq_iff.mp ho
    exact exec_payLast_next s h.cursorCell c ha rfl
  | _ => cases hst

/-- Every other transition of a state of the invariant leaves the parser hunting, the buffer in its canonical form. -/
theorem State.Inv.step_clearing (h : s.Inv) (ha : s.armed = true) (hst : storeTarget (s.fetched b) = none) :
    ∃ t, step (s.offer (.byte b)) = .next t ∧ Cleared t ∧ Memory.wf t.buf = true := by
  have hc : s.cursor.val < 32 := Nat.lt_succ_of_le h.cursor_le
  have hput : Memory.wf (Memory.put s.buf s.cursor.val b) = true := wf_put s.buf h.cursorCell b h.canonical
  rw [step_offer_byte]
  generalize hi : s.fetched b = i at hst ⊢
  have ho := operand_of_fetched hi
  cases i with
  | h1Ignore c =>
    obtain ⟨hs, rfl⟩ := operand_eq_iff.mp ho
    exact ⟨_, exec_h1Ignore_next s c ha, ⟨hs, Fin.ext (h.cursor_of_awaitingHeader1 hs), rfl⟩, h.canonical⟩
  | h2Resync c => exact ⟨_, exec_h2Resync_next s c ha, ⟨rfl, rfl, rfl⟩, h.canonical⟩
  | lenReject c =>
    obtain ⟨_, rfl⟩ := operand_eq_iff.mp ho
    exact ⟨_, exec_lenReject_next s c ha hc, ⟨rfl, rfl, rfl⟩, hput⟩
  | endDispatch c =>
    obtain ⟨_, rfl⟩ := operand_eq_iff.mp ho
    obtain ⟨r, ok, ht, _⟩ := execEndDispatch_next s c ha hc
    exact ⟨_, ht, ⟨rfl, rfl, ha⟩, hput⟩
  | h1Match | h2Match | cmdStore c | lenPayload c | lenEmpty | payMore c | payLast c => cases hst
  | _ => cases ho

/-! ### The invariant after a stored byte (R13, R32) -/

variable (h : s.Inv)

theorem State.Inv.afterByte_cursor : (h.afterByte b st).cursor.val = s.cursor.val + 1 := rfl

theorem State.Inv.afterByte_cell_self {a : Fin 32} (ha : a.val = s.cursor.val) : (h.afterByte b st).cell a = b := by
  rw [State.Inv.afterByte, afterStore_storesOnly, if_pos (Fin.ext ha)]

theorem State.Inv.afterByte_cell_ne {a : Fin 32} (ha : a.val ≠ s.cursor.val) :
    (h.afterByte b st).cell a = s.cell a := by
  rw [State.Inv.afterByte, afterStore_storesOnly, if_neg fun e => ha (congrArg Fin.val e)]

theorem State.Inv.afterByte_len (hc : s.cursor.val ≠ 3) : (h.afterByte b st).len = s.len :=
  h.afterByte_cell_ne (a := lengthIndex) hc.symm

theorem State.Inv.afterByte_headersStored (hc : 2 ≤ s.cursor.val) (hh : s.HeadersStored) :
    (h.afterByte b st).HeadersStored := by
  have h0 : (0 : Fin 32).val ≠ s.cursor.val := by show 0 ≠ _; omega
  have h1 : (1 : Fin 32).val ≠ s.cursor.val := by show 1 ≠ _; omega
  exact ⟨(h.afterByte_cell_ne h0).trans hh.left, (h.afterByte_cell_ne h1).trans hh.right⟩

/-- The table of R13 after a stored byte: one line of the table leads to the next. -/
theorem State.Inv.afterByte_tied (hst : storeTarget (s.fetched b) = some st) : (h.afterByte b st).Tied := by
  generalize hi : s.fetched b = i at hst
  have row : RowApplies i s b := h.rowApplies_iff_fetched.mpr hi
  have tied := h.tied
  cases i with
  | h1Match =>
    obtain ⟨hs, rfl⟩ := row
    cases hst
    simp only [State.Tied, hs] at tied
    exact ⟨by rw [h.afterByte_cursor, tied], h.afterByte_cell_self tied.symm⟩
  | h2Match =>
    obtain ⟨hs, rfl⟩ := row
    cases hst
    simp only [State.Tied, hs] at tied
    obtain ⟨hc, h0⟩ := tied
    have hne : (0 : Fin 32).val ≠ s.cursor.val := by rw [hc]; decide
    exact ⟨by rw [h.afterByte_cursor, hc], (h.afterByte_cell_ne hne).trans h0, h.afterByte_cell_self hc.symm⟩
  | cmdStore c =>
    obtain ⟨hs, rfl⟩ := row
    cases hst
    simp only [State.Tied, hs] at tied
    obtain ⟨hc, hh⟩ := tied
    exact ⟨by rw [h.afterByte_cursor, hc], h.afterByte_headersStored hc.ge hh⟩
  | lenPayload c =>
    obtain ⟨hs, rfl, h1, h27⟩ := row
    cases hst
    simp only [State.Tied, hs] at tied
    obtain ⟨hc, hh⟩ := tied
    have hlen : (h.afterByte c .awaitingPayload).len = c := h.afterByte_cell_self hc.symm
    show 4 ≤ s.cursor.val + 1 ∧ s.cursor.val + 1 < _ ∧ _
    rw [hlen]
    exact ⟨by omega, by omega, h27, h.afterByte_headersStored (by omega) hh⟩
  | lenEmpty =>
    obtain ⟨hs, rfl⟩ := row
    cases hst
    simp only [State.Tied, hs] at tied
    obtain ⟨hc, hh⟩ := tied
    have hlen : (h.afterByte 0 .awaitingEnd).len = 0 := h.afterByte_cell_self hc.symm
    show s.cursor.val + 1 = _ ∧ _
    rw [hlen]
    exact ⟨by rw [hc]; rfl, Nat.zero_le 27, h.afterByte_headersStored (by omega) hh⟩
  | payMore c =>
    obtain ⟨hs, rfl, hlt⟩ := row
    cases hst
    simp only [State.Tied, hs] at tied
    obtain ⟨h4, _, h27, hh⟩ := tied
    show 4 ≤ s.cursor.val + 1 ∧ s.cursor.val + 1 < _ ∧ _
    rw [h.afterByte_len (by omega)]
    exact ⟨by omega, hlt, h27, h.afterByte_headersStored (by omega) hh⟩
  | payLast c =>
    obtain ⟨hs, rfl, heq⟩ := row
    cases hst
    simp only [State.Tied, hs] at tied
    obtain ⟨h4, _, h27, hh⟩ := tied
    show s.cursor.val + 1 = _ ∧ _
    rw [h.afterByte_len (by omega)]
    exact ⟨heq, h27, h.afterByte_headersStored (by omega) hh⟩
  | _ => cases hst

theorem State.Inv.afterByte_inv (hst : storeTarget (s.fetched b) = some st) : (h.afterByte b st).Inv where
  canonical := wf_put s.buf h.cursorCell b h.canonical
  tied := h.afterByte_tied hst
  written := by
    intro a ha
    show (Memory.cell? (Memory.put s.buf s.cursor.val b) a.val).isSome = true
    have hle : a.val ≤ s.cursor.val := Nat.lt_succ_iff.mp ha
    rw [isSome_put, Bool.or_eq_true, decide_eq_true_eq]
    exact hle.eq_or_lt.imp Eq.symm (h.written a)
  armedAfterBoot := fun hna => nomatch hna

theorem Cleared.inv {t : State} (hcl : Cleared t) (hwf : Memory.wf t.buf = true) : t.Inv :=
  inv_of_awaitingHeader1 hcl.state (congrArg Fin.val hcl.cursor) hwf

/-- A byte's step from an armed state of the invariant answers an armed state of the invariant. -/
theorem State.Inv.step_byte (h : s.Inv) (ha : s.armed = true) (b : Byte) :
    ∃ t, step (s.offer (.byte b)) = .next t ∧ t.Inv ∧ t.armed = true := by
  cases hst : storeTarget (s.fetched b) with
  | some st => exact ⟨_, h.step_storing ha hst, h.afterByte_inv hst, rfl⟩
  | none =>
    obtain ⟨t, ht, hcl, hwf⟩ := h.step_clearing ha hst
    exact ⟨t, ht, hcl.inv hwf, hcl.armed⟩

theorem inv_of_offer {x : Input} (h : (s.offer x).Inv) : s.Inv :=
  ⟨h.canonical, h.tied, h.written, h.armedAfterBoot⟩

theorem State.Inv.step_inv (h : s.Inv) {t : State} (ht : step s = .next t) : t.Inv := by
  obtain ⟨_, rfl⟩ | ⟨u, hu⟩ := step_cases ht
  · exact h
  · obtain ⟨b, rfl, ha, _⟩ | ⟨rfl, rfl⟩ | ⟨rfl, rfl⟩ | ⟨c, rfl, rfl⟩ | ⟨f, rfl, rfl⟩ | ⟨rfl, rfl⟩ := hu
    · obtain ⟨t', ht', hinv, _⟩ := (inv_of_offer h).step_byte ha b
      rw [ht'] at ht
      cases ht
      exact hinv
    · exact inv_of_awaitingHeader1 rfl rfl wf_nil
    · exact ⟨h.canonical, h.tied, h.written, fun hna => nomatch hna⟩
    · exact ⟨h.canonical, h.tied, h.written, h.armedAfterBoot⟩
    · exact ⟨h.canonical, h.tied, h.written, h.armedAfterBoot⟩
    · exact ⟨h.canonical, h.tied, h.written, h.armedAfterBoot⟩

/-! ### Two machines at the same point of the same frame (R40) -/

/-- The transition fetched reads the parser state, the cursor and, in the payload, the length: all of them the same. -/
theorem SameParse.fetched_eq {s' : State} (hp : SameParse s s') (h : s.Inv) (b : Byte) :
    s.fetched b = s'.fetched b := by
  rw [State.fetched, State.fetched, ← hp.state, ← hp.cursor]
  cases hs : s.state with
  | awaitingPayload =>
    have tied := h.tied
    simp only [State.Tied, hs] at tied
    have hlen : s.len = s'.len := hp.frame lengthIndex tied.left
    rw [hlen]
  | _ => rfl

theorem SameParse.afterByte {s' : State} (hp : SameParse s s') (h : s.Inv) (h' : s'.Inv) (b : Byte) (st : ParserState) :
    SameParse (h.afterByte b st) (h'.afterByte b st) where
  state := rfl
  cursor := Fin.ext (congrArg (fun c => c.val + 1) hp.cursor)
  armed := rfl
  frame := by
    intro a ha
    have hcursor : s.cursor.val = s'.cursor.val := congrArg Fin.val hp.cursor
    obtain hlt | heq := Nat.lt_succ_iff_lt_or_eq.mp ha
    · rw [h.afterByte_cell_ne hlt.ne, h'.afterByte_cell_ne (hcursor ▸ hlt.ne)]
      exact hp.frame a hlt
    · rw [h.afterByte_cell_self heq, h'.afterByte_cell_self (hcursor ▸ heq)]

theorem Cleared.sameParse {t t' : State} (h : Cleared t) (h' : Cleared t') : SameParse t t' where
  state := h.state.trans h'.state.symm
  cursor := h.cursor.trans h'.cursor.symm
  armed := h.armed.trans h'.armed.symm
  frame := fun i hi => absurd hi (by rw [h.cursor]; exact Nat.not_lt_zero _)

end Sys2Proof.Machine

/-! ### The statements -/

namespace Sys2Proof.Proofs

open Sys2Proof Sys2Proof.Machine

/-- Settles O27: a byte is stored, which leads from one line of the table of R13 to the next, or leaves the parser
hunting; every other input leaves the parser alone or resets it. -/
theorem everyStepKeepsTheInvariant : Obligations.EveryStepKeepsTheInvariant := fun _ _ h ht => h.step_inv ht

/-- Settles O39: both machines fetch the same transition, which stores the byte at the same cursor or leaves both
hunting. -/
theorem staleCellsNeverSteerTheParser : Obligations.StaleCellsNeverSteerTheParser := by
  intro s s' b h h' hp ha
  have ha' : s'.armed = true := hp.armed ▸ ha
  have hfetched : s'.fetched b = s.fetched b := (hp.fetched_eq h b).symm
  cases hst : storeTarget (s.fetched b) with
  | some st =>
    exact ⟨_, _, h.step_storing ha hst, h'.step_storing ha' (hfetched ▸ hst), hp.afterByte h h' b st⟩
  | none =>
    obtain ⟨t, ht, hcl, _⟩ := h.step_clearing ha hst
    obtain ⟨t', ht', hcl', _⟩ := h'.step_clearing ha' (hfetched ▸ hst)
    exact ⟨t, t', ht, ht', hcl.sameParse hcl'⟩

end Sys2Proof.Proofs
end

section
/-! Runs of bytes: no instruction reads or changes the pending inputs, so a run over bytes is a chain of byte steps.
From this the statements about byte sequences of any length, about the way back to the header hunt, and about runs of
ignored bytes. -/

namespace Sys2Proof.Machine

open Sys2Proof

/-! ### The pending inputs (R38, R52) -/

/-- What `f` answers does not depend on the bytes that arrive later, and it leaves them pending. -/
def KeepsPending (f : State → Result) : Prop :=
  ∀ (s : State) (bs : List Byte), f (s.feed bs) = andThen (f s) (fun t => .next (t.feed bs))

theorem KeepsPending.andThen {f g : State → Result} (hf : KeepsPending f) (hg : KeepsPending g) :
    KeepsPending (fun s => andThen (f s) g) := by
  intro s bs
  show Machine.andThen (f (s.feed bs)) g = _
  rw [hf s bs, andThen_assoc, andThen_assoc]
  exact congrArg (Machine.andThen (f s)) (funext fun t => hg t bs)

theorem keepsPending_store (b : Byte) : KeepsPending (store b) := by
  intro s bs
  obtain ⟨hc, h⟩ | ⟨hc, h⟩ := store_cases b s
  · rw [h, andThen_next]
    exact store_next b (s.feed bs) hc
  · have hfull : ¬ (s.feed bs).cursor.val < 32 := hc.not_lt
    rw [h, andThen_fault, store_full b (s.feed bs) hfull, feed_cursor, hc]

theorem keepsPending_receive {f : State → Result} (hf : KeepsPending f) : KeepsPending (receive f) := by
  intro s bs
  cases ha : s.armed with
  | true =>
    have hf' : f (s.feed bs).disarm = _ := hf s.disarm bs
    rw [receive_armed f s ha, receive_armed f (s.feed bs) ha, hf', andThen_assoc, andThen_assoc]
    rfl
  | false => rw [receive_not_armed f s ha, receive_not_armed f (s.feed bs) ha, andThen_refused]

theorem keepsPending_next {f : State → State} (hf : ∀ s bs, f (s.feed bs) = (f s).feed bs) :
    KeepsPending (fun s => .next (f s)) := fun s bs => congrArg Host.Outcome.next (hf s bs)

/-- The interpreter's row of any command byte. -/
theorem keepsPending_commandRow (c : Byte) : KeepsPending (exec (decodeCommand c)) := by
  intro s bs
  unfold decodeCommand
  cases commandOfCode c with
  | none => rfl
  | some k =>
    cases k with
    | measure => exact (exec_measure (s.feed bs)).trans (by rw [exec_measure]; rfl)
    | crosstalkCorrection | offsetCorrection => rfl
    | reset => exact (exec_reset (s.feed bs)).trans (by rw [exec_reset]; rfl)
    | getFactoryDefaultSettings =>
      exact (exec_getFactoryDefaultSettings (s.feed bs)).trans (by rw [exec_getFactoryDefaultSettings]; rfl)
    | getProductInfo => exact (exec_getProductInfo (s.feed bs)).trans (by rw [exec_getProductInfo]; rfl)

theorem keepsPending_interpret : KeepsPending interpret := by
  intro s bs
  rw [interpret_eq_exec, interpret_eq_exec, feed_cell]
  exact keepsPending_commandRow (s.cell 2) s bs

theorem keepsPending_dispatch (e : Bool) : KeepsPending (dispatch e) :=
  fun s bs => keepsPending_interpret (s.emit (.dispatch s.cursor.val s.snapshot e)) bs

/-- No instruction reads or changes the pending inputs. -/
theorem keepsPending_exec (i : Instr) : KeepsPending (exec i) := by
  have goto (st : ParserState) : KeepsPending (fun s => .next (s.goto st)) := keepsPending_next fun _ _ => rfl
  have updating (f : State → State) (hf : ∀ s bs, f (s.feed bs) = (f s).feed bs) :
      KeepsPending (receive fun s => .next (f s)) := keepsPending_receive (keepsPending_next hf)
  cases i with
  | h1Match => exact updating (fun s => ((s.storeAt 0 Config.header1).setCursor 1).goto .awaitingHeader2) fun _ _ => rfl
  | h1Ignore b => exact updating (fun s => s.emit (.ignored b)) fun _ _ => rfl
  | h2Match => exact updating (fun s => ((s.storeAt 1 Config.header2).setCursor 2).goto .awaitingCommand) fun _ _ => rfl
  | h2Resync b => exact updating (fun s => s.resync .badHeader2) fun _ _ => rfl
  | cmdStore b | lenPayload b | payLast b => exact keepsPending_receive ((keepsPending_store b).andThen (goto _))
  | lenEmpty => exact keepsPending_receive ((keepsPending_store 0).andThen (goto _))
  | lenReject b =>
    exact keepsPending_receive ((keepsPending_store b).andThen (keepsPending_next fun _ _ => rfl))
  | payMore b => exact keepsPending_receive (keepsPending_store b)
  | endDispatch b =>
    exact keepsPending_receive ((keepsPending_store b).andThen
      ((keepsPending_dispatch (endOK b)).andThen (keepsPending_next fun _ _ => rfl)))
  | measure => exact keepsPending_commandRow 0x81
  | crosstalkCorrection => exact keepsPending_commandRow 0x82
  | offsetCorrection => exact keepsPending_commandRow 0x83
  | reset => exact keepsPending_commandRow 0x84
  | getFactoryDefaultSettings => exact keepsPending_commandRow 0x85
  | getProductInfo => exact keepsPending_commandRow 0x86
  | otherCommand c | req c => exact keepsPending_next fun _ _ => rfl

/-- The step of a byte with others pending is that byte's step, the others still pending. -/
theorem step_feed_cons {s t : State} {b : Byte} (h : step (s.offer (.byte b)) = .next t) (bs : List Byte) :
    step (s.feed (b :: bs)) = .next (t.feed bs) := by
  rw [step_offer_byte] at h
  rw [feed_cons, step_offer_byte]
  show exec (s.fetched b) (s.feed bs) = _
  rw [keepsPending_exec, h, andThen_next]

theorem State.Inv.step_offer_inv {s t : State} {x : Input} (h : s.Inv) (ht : step (s.offer x) = .next t) : t.Inv :=
  State.Inv.step_inv (s := s.offer x) ⟨h.canonical, h.tied, h.written, h.armedAfterBoot⟩ ht

/-! ### Runs of bytes -/

/-- The bytes `bs` take the machine from `s` to `t`, one step a byte, whatever arrives after them. -/
def ByteRun (s : State) (bs : List Byte) (t : State) : Prop :=
  ∀ later : List Byte, runSteps bs.length (s.feed (bs ++ later)) = .next (t.feed later)

theorem ByteRun.nil (s : State) : ByteRun s [] s := fun _ => rfl

theorem ByteRun.cons {s t u : State} {b : Byte} {bs : List Byte} (h : step (s.offer (.byte b)) = .next t)
    (hr : ByteRun t bs u) : ByteRun s (b :: bs) u := by
  intro later
  rw [List.length_cons, runSteps_succ, List.cons_append, step_feed_cons h, andThen_next]
  exact hr later

theorem ByteRun.append {s t u : State} {bs cs : List Byte} (h : ByteRun s bs t) (hr : ByteRun t cs u) :
    ByteRun s (bs ++ cs) u := by
  intro later
  rw [List.length_append, runSteps_add, List.append_assoc, h, andThen_next]
  exact hr later

theorem ByteRun.snoc {s t u : State} {b : Byte} {bs : List Byte} (h : ByteRun s bs t)
    (hu : step (t.offer (.byte b)) = .next u) : ByteRun s (bs ++ [b]) u := h.append (.cons hu (.nil u))

theorem ByteRun.runSteps {s t : State} {bs : List Byte} (h : ByteRun s bs t) :
    runSteps bs.length (s.feed bs) = .next t := by
  have hr := h []
  rwa [List.append_nil, feed_nil] at hr

/-- A byte's step takes that byte and no other input. -/
theorem input_of_next {s t : State} {b : Byte} (h : step (s.offer (.byte b)) = .next t) : t.input = s.input := by
  obtain ⟨_, hstep⟩ := byteStep_of_next s t b h
  cases hstep <;> (subst_vars; rfl)

/-- Any bytes take an armed state of the invariant to one (R108). -/
theorem State.Inv.byteRun {s : State} (h : s.Inv) (ha : s.armed = true) (bs : List Byte) :
    ∃ t, ByteRun s bs t ∧ t.Inv ∧ t.armed = true ∧ t.input = s.input := by
  induction bs generalizing s with
  | nil => exact ⟨s, .nil s, h, ha, rfl⟩
  | cons b bs ih =>
    obtain ⟨t, ht, hinv, harmed⟩ := h.step_byte ha b
    obtain ⟨u, hu, hinv', harmed', hinput⟩ := ih hinv harmed
    exact ⟨u, .cons ht hu, hinv', harmed', hinput.trans (input_of_next ht)⟩

/-! ### The way back to the header hunt (R109) -/

/-- How many further bytes the frame in progress can take at most, its trailer included. -/
def bytesToHunt (s : State) : Nat :=
  match s.state with
  | .awaitingHeader1 => 0
  | .awaitingHeader2 => 31
  | .awaitingCommand => 30
  | .awaitingLength  => 29
  | .awaitingPayload => 5 + s.len.toNat - s.cursor.val
  | .awaitingEnd     => 1

/-- The cursor in the payload is past the frame's first four bytes (R13). -/
theorem State.Inv.four_le_cursor {s : State} (h : s.Inv) (hs : s.state = .awaitingPayload) : 4 ≤ s.cursor.val := by
  have tied := h.tied
  simp only [State.Tied, hs] at tied
  exact tied.left

theorem State.Inv.bytesToHunt_le {s : State} (h : s.Inv) : bytesToHunt s ≤ 31 := by
  have tied := h.tied
  cases hs : s.state with
  | awaitingPayload =>
    simp only [State.Tied, hs] at tied
    simp only [bytesToHunt, hs]
    omega
  | _ => simp [bytesToHunt, hs]

/-- A stored byte brings the parser nearer to the end of the frame. -/
theorem State.Inv.bytesToHunt_afterByte_lt {s : State} (h : s.Inv) {b : Byte} {st : ParserState}
    (hst : storeTarget (s.fetched b) = some st) (hs : s.state ≠ .awaitingHeader1) :
    bytesToHunt (h.afterByte b st) < bytesToHunt s := by
  generalize hi : s.fetched b = i at hst
  have row : RowApplies i s b := h.rowApplies_iff_fetched.mpr hi
  have hstate : (h.afterByte b st).state = st := rfl
  have hcursor : (h.afterByte b st).cursor.val = s.cursor.val + 1 := rfl
  cases i with
  | h1Match => exact absurd row.left hs
  | h2Match | cmdStore c | lenEmpty =>
    cases hst
    simp [bytesToHunt, row.left, hstate]
  | lenPayload c =>
    obtain ⟨hs, rfl, h1, h27⟩ := row
    cases hst
    have hc := h.cursor_of_awaitingLength hs
    have hlen : (h.afterByte c .awaitingPayload).len = c := h.afterByte_cell_self hc.symm
    simp only [bytesToHunt, hs, hstate, hcursor, hlen]
    omega
  | payMore c =>
    obtain ⟨hs, rfl, hlt⟩ := row
    cases hst
    have h4 := h.four_le_cursor hs
    have hlen : (h.afterByte c .awaitingPayload).len = s.len := h.afterByte_len (by omega)
    simp only [bytesToHunt, hs, hstate, hcursor, hlen]
    omega
  | payLast c =>
    obtain ⟨hs, rfl, heq⟩ := row
    cases hst
    simp only [bytesToHunt, hs, hstate]
    omega
  | _ => cases hst

theorem State.Inv.bytesToHunt_pos {s : State} (h : s.Inv) (hs : s.state ≠ .awaitingHeader1) : 0 < bytesToHunt s := by
  cases hst : s.state with
  | awaitingHeader1 => exact absurd hst hs
  | awaitingPayload =>
    have hlt := h.payload_cursor_lt hst
    simp only [bytesToHunt, hst]
    omega
  | _ => simp [bytesToHunt, hst]

/-- With as many bytes pending as the frame in progress can take, one of the next steps leaves the parser hunting. -/
theorem State.Inv.reaches_hunt {s : State} (h : s.Inv) (ha : s.armed = true) {bs : List Byte}
    (hbs : bytesToHunt s ≤ bs.length) :
    ∃ k t, k ≤ bs.length ∧ runSteps k (s.feed bs) = .next t ∧ t.state = .awaitingHeader1 ∧ t.cursor.val = 0 := by
  induction bs generalizing s with
  | nil =>
    have hs : s.state = .awaitingHeader1 := by_contra fun hs => (h.bytesToHunt_pos hs).not_ge hbs
    exact ⟨0, s, le_rfl, rfl, hs, h.cursor_of_awaitingHeader1 hs⟩
  | cons b bs ih =>
    by_cases hs : s.state = .awaitingHeader1
    · exact ⟨0, s.feed (b :: bs), Nat.zero_le _, rfl, hs, h.cursor_of_awaitingHeader1 hs⟩
    · cases hst : storeTarget (s.fetched b) with
      | some st =>
        have hlt := h.bytesToHunt_afterByte_lt hst hs
        obtain ⟨k, t, hk, hrun, ht⟩ := ih (h.afterByte_inv hst) rfl (Nat.le_of_lt_succ (hlt.trans_le hbs))
        refine ⟨k + 1, t, Nat.succ_le_succ hk, ?_, ht⟩
        rw [runSteps_succ, step_feed_cons (h.step_storing ha hst), andThen_next, hrun]
      | none =>
        obtain ⟨t, ht, hcl, _⟩ := h.step_clearing ha hst
        refine ⟨1, t.feed bs, Nat.le_add_left 1 _, ?_, hcl.state, congrArg Fin.val hcl.cursor⟩
        rw [runSteps_succ, step_feed_cons ht, andThen_next, runSteps_zero]

/-! ### Bytes that are ignored (R71) -/

/-- A hunting parser ignores a byte other than `HEADER1` and still hunts. -/
theorem State.Hunting.step_ignored {s : State} (h : s.Hunting) {b : Byte} (hb : b ≠ Config.header1) :
    step (s.offer (.byte b)) = .next (s.disarm.emit (.ignored b)).rearm ∧
      (s.disarm.emit (.ignored b)).rearm.Hunting := by
  obtain ⟨hinv, ha, hs⟩ := h
  have ht := (step_offer_byte_of_fetched (fetched_notHeader1 s b hs hb)).trans (exec_h1Ignore_next s b ha)
  exact ⟨ht, hinv.step_offer_inv ht, rfl, hs⟩

theorem EventsOf.nil (s : State) : EventsOf s s [] := (List.append_nil _).symm

theorem EventsOf.append {s t u : State} {evs evs' : List Event} (h : EventsOf s t evs) (h' : EventsOf t u evs') :
    EventsOf s u (evs ++ evs') := by
  rw [EventsOf, h', h, List.append_assoc]

theorem SameRest.refl (s : State) : SameRest s s := ⟨rfl, rfl, rfl, rfl, rfl⟩

theorem SameRest.trans {s t u : State} (h : SameRest s t) (h' : SameRest t u) : SameRest s u :=
  ⟨h'.sensor.trans h.sensor, h'.epoch.trans h.epoch, h'.input.trans h.input, h'.returned.trans h.returned,
    h'.sent.trans h.sent⟩

end Sys2Proof.Machine

/-! ### The statements -/

namespace Sys2Proof.Proofs

open Sys2Proof Sys2Proof.Machine

/-- Settles O29: the run over the bytes, one step each, whose states are armed states of the invariant. -/
theorem anyByteSequenceStaysInBounds : Obligations.AnyByteSequenceStaysInBounds := by
  intro s bs h ha
  obtain ⟨t, hrun, hinv, harmed, hinput⟩ := h.byteRun ha bs
  exact ⟨t, hrun.runSteps, hinv, harmed, hinv.cursor_le, hinput⟩

/-- Settles O30: the frame in progress takes at most 31 bytes, and every byte it takes leaves fewer for it to take. -/
theorem thirtyOneBytesReachTheHeaderHunt : Obligations.ThirtyOneBytesReachTheHeaderHunt := by
  intro s bs h ha hlen
  have hbs : bytesToHunt s ≤ bs.length := h.bytesToHunt_le.trans hlen.ge
  obtain ⟨k, t, hk, ht⟩ := h.reaches_hunt ha hbs
  exact ⟨k, t, hk.trans_eq hlen, ht⟩

/-- Settles O36: by induction over the bytes; each is ignored and the parser hunts on. -/
theorem bytesWithoutHeaderAreAllIgnored : Obligations.BytesWithoutHeaderAreAllIgnored := by
  have main (s : State) (bs : List Byte) (h : s.Hunting) (hbs : Config.header1 ∉ bs) :
      ∃ t, ByteRun s bs t ∧ t.Hunting ∧ t.cursor = s.cursor ∧ t.buf = s.buf ∧
        EventsOf s t (bs.flatMap fun b => [.ignored b, .rearm]) ∧ SameRest s t := by
    induction bs generalizing s with
    | nil => exact ⟨s, .nil s, h, rfl, rfl, .nil s, .refl s⟩
    | cons b bs ih =>
      obtain ⟨hb, hbs⟩ := List.ne_and_not_mem_of_not_mem_cons hbs
      obtain ⟨ht, hh⟩ := h.step_ignored hb.symm
      obtain ⟨u, hrun, hu, hcursor, hbuf, hevs, hrest⟩ := ih _ hh hbs
      exact ⟨u, .cons ht hrun, hu, hcursor, hbuf, (ignored_events s b).append hevs, (ignored_sameRest s b).trans hrest⟩
  intro s bs h hbs
  obtain ⟨t, hrun, ht⟩ := main s bs h hbs
  exact ⟨t, hrun.runSteps, ht⟩

end Sys2Proof.Proofs
end

section
/-! The sensor record over steps (R111, R118, R121): what a byte's step, and what any step, does to the record and to
its unread flag, and from these the statements about every step and about every run. -/

namespace Sys2Proof.Machine

open Sys2Proof

/-! ### When the interpreter succeeds (R112, R117) -/

/-- The command bytes whose rows can succeed. -/
def Recognized (c : Byte) : Prop := c = 0x81 ∨ c = 0x84 ∨ c = 0x85 ∨ c = 0x86

theorem interpretFailed_ne_success {s : State} {r : SensorState} :
    (Host.Outcome.next s.interpretFailed : Result) ≠
      .next { s with sensor := r, trace := s.trace ++ [.interpResult true] } := by
  intro h
  have htrace := congrArg State.trace (Host.Outcome.next.inj h)
  have hevents : [Event.interpResult false] = [.interpResult true] := List.append_cancel_left htrace
  cases hevents

/-- The interpreter reports success for a recognized command only. -/
theorem recognized_of_success {s : State} {r : SensorState}
    (h : interpret s = .next { s with sensor := r, trace := s.trace ++ [.interpResult true] }) :
    Recognized (s.cell 2) := by
  rw [interpret_eq_exec, decodeCommand] at h
  cases hc : commandOfCode (s.cell 2) with
  | none =>
    rw [hc] at h
    exact absurd h interpretFailed_ne_success
  | some c =>
    have hcode : commandCode c = s.cell 2 := code_of_commandOfCode hc
    rw [hc] at h
    cases c with
    | measure => exact .inl hcode.symm
    | crosstalkCorrection | offsetCorrection => exact absurd h interpretFailed_ne_success
    | reset => exact .inr (.inl hcode.symm)
    | getFactoryDefaultSettings => exact .inr (.inr (.inl hcode.symm))
    | getProductInfo => exact .inr (.inr (.inr hcode.symm))

/-- The command byte as the interpreter finds it is the one received: the trailer is stored past it. -/
theorem State.Inv.atDispatch_command {s : State} (h : s.Inv) (hs : s.state = .awaitingEnd) (b : Byte)
    (hc : s.cursor.val < 32) : (atDispatch s b hc).cell 2 = s.cell 2 := by
  have hcursor := h.cursor_of_awaitingEnd hs
  rw [atDispatch_storesOnly s b ⟨s.cursor.val, hc⟩ rfl hc, if_neg]
  intro he
  have h2 : 2 = s.cursor.val := congrArg Fin.val he
  omega

/-! ### The record after a byte's step -/

variable {s t : State} {b : Byte} {evs : List Event}

/-- A byte's step leaves the record as it is, or it reports success, sets `unread` and is the step of a trailer. -/
theorem StepEvents.sensor (h : StepEvents s b t evs) :
    (t.sensor = s.sensor ∧ Event.interpResult true ∉ evs) ∨
      (t.sensor.unread = true ∧ Event.interpResult true ∈ evs ∧ s.state = .awaitingEnd ∧
        (s.Inv → Recognized (s.cell 2))) := by
  cases h with
  | quiet e he hend hbad hlen hsensor =>
    obtain ⟨_, _, _, hne, _⟩ := Event.isQuiet_spec he
    exact .inl ⟨hsensor, by simpa using hne.symm⟩
  | badHeader2 hbad ht => exact .inl ⟨by rw [ht]; rfl, by simp⟩
  | oversizeLength hlen hc ht => exact .inl ⟨by rw [ht]; rfl, by simp⟩
  | dispatch hs hc r ok hfail hdone hi ht =>
    subst ht
    cases ok with
    | false => exact .inl ⟨hfail rfl, by simp⟩
    | true =>
      refine .inr ⟨hdone rfl, by simp, hs, fun h => ?_⟩
      rw [← h.atDispatch_command hs b hc]
      exact recognized_of_success hi

/-- A byte's step sets `unread` exactly when it reports success, and clears it never. -/
theorem StepEvents.unread_iff (h : StepEvents s b t evs) :
    t.sensor.unread = true ↔ s.sensor.unread = true ∨ Event.interpResult true ∈ evs := by
  obtain ⟨hsensor, hno⟩ | ⟨hunread, hyes, _⟩ := h.sensor
  · rw [hsensor, or_iff_left hno]
  · exact iff_of_true hunread (.inr hyes)

/-! ### The unread flag along a run -/

/-- No reset and no `takeUnreadFlag()` is pending. -/
def KeepsUnread (s : State) : Prop := ∀ x ∈ s.input, x ≠ .resetAssert ∧ x ≠ .takeUnread

/-- A step that is neither a reset nor a `takeUnreadFlag()` has its events, and with them sets `unread` exactly when it
reports success; what is pending after it was pending before. -/
theorem unread_step (h : step s = .next t) (hs : KeepsUnread s) :
    KeepsUnread t ∧ ∃ evs, EventsOf s t evs ∧
      (t.sensor.unread = true ↔ s.sensor.unread = true ∨ Event.interpResult true ∈ evs) := by
  obtain ⟨_, rfl⟩ | ⟨u, hu⟩ := step_cases h
  · exact ⟨hs, [], .nil _, by simp⟩
  · have rest {x : Input} (hx : s = u.offer x) : KeepsUnread u :=
      fun y hy => hs y (by rw [hx]; exact List.mem_cons_of_mem x hy)
    have head {x : Input} (hx : s = u.offer x) : x ≠ .resetAssert ∧ x ≠ .takeUnread :=
      hs x (by rw [hx]; exact List.mem_cons_self)
    obtain ⟨b, hx, _, hstep⟩ | ⟨hx, rfl⟩ | ⟨hx, rfl⟩ | ⟨c, hx, rfl⟩ | ⟨f, hx, rfl⟩ | ⟨hx, rfl⟩ := hu
    · obtain ⟨evs, he, hevs⟩ := hstep.events
      subst hx
      refine ⟨?_, evs, he, hevs.unread_iff⟩
      rw [KeepsUnread, input_of_next h]
      exact rest rfl
    · exact absurd rfl (head hx).left
    · exact ⟨rest hx, [], by rw [hx]; exact .nil u, by rw [hx]; simp⟩
    · exact ⟨rest hx, [], by rw [hx]; exact .nil u, by rw [hx]; simp⟩
    · exact ⟨rest hx, [], by rw [hx]; exact .nil u, by rw [hx]; simp⟩
    · exact absurd rfl (head hx).right

theorem unread_run {k : Nat} (h : runSteps k s = .next t) (hs : KeepsUnread s) :
    ∃ evs, EventsOf s t evs ∧
      (t.sensor.unread = true ↔ s.sensor.unread = true ∨ Event.interpResult true ∈ evs) := by
  induction k generalizing s with
  | zero =>
    cases h
    exact ⟨[], .nil _, by simp⟩
  | succ k ih =>
    obtain ⟨u, hu, hrun⟩ := andThen_eq_next h
    obtain ⟨hkeeps, evs, he, hunread⟩ := unread_step hu hs
    obtain ⟨evs', he', hunread'⟩ := ih hrun hkeeps
    exact ⟨evs ++ evs', he.append he', by rw [hunread', hunread, List.mem_append, or_assoc]⟩

end Sys2Proof.Machine

/-! ### The statements -/

namespace Sys2Proof.Proofs

open Sys2Proof Sys2Proof.Machine

/-- Settles O41: of the inputs only a reset, a `takeUnreadFlag()` and a byte write the record, and a byte's step that
changes it reports success. -/
theorem sensorChangesOnlyByRecognizedFrames : Obligations.SensorChangesOnlyByRecognizedFrames := by
  intro s t x hinv h hne
  cases x with
  | resetAssert => exact .inl rfl
  | takeUnread =>
    cases h
    exact .inr (.inl ⟨rfl, rfl⟩)
  | resetRelease | send c | read f =>
    cases h
    exact absurd rfl hne
  | byte b =>
    obtain ⟨_, hstep⟩ := byteStep_of_next s t b h
    obtain ⟨evs, he, hevs⟩ := hstep.events
    obtain ⟨hsensor, _⟩ | ⟨hunread, hyes, hs, hrec⟩ := hevs.sensor
    · exact absurd hsensor hne
    · exact .inr (.inr ⟨hs, ⟨b, rfl⟩, hrec hinv, hunread, evs, he, hyes⟩)

/-- Settles O42: by induction over the run; the events are those of its steps. -/
theorem unreadIsSetExactlyBySuccess : Obligations.UnreadIsSetExactlyBySuccess := by
  intro k s t evs hclear hs hrun he
  obtain ⟨evs', he', hunread⟩ := unread_run hrun hs
  rw [hunread, he.unique he', hclear, or_iff_right Bool.false_ne_true]

end Sys2Proof.Proofs
end

section
/-! Whole frames (R32, R105, R106): a frame is received by storing transitions, one a byte, and the state after them
is read off the bytes; the trailer's step dispatches what is stored. From these the statements about frames, rejected
attempts, stray header bytes, delivered payloads and requests fed back. -/

namespace Sys2Proof.Machine

open Sys2Proof

/-! ### The instructions of a run -/

theorem executed_succ {s t : State} (h : step s = .next t) (k : Nat) :
    executed (k + 1) s = (nextInstr s).toList ++ executed k t := by
  simp only [executed, h]

theorem executed_add {j k : Nat} {s t : State} (h : runSteps j s = .next t) :
    executed (j + k) s = executed j s ++ executed k t := by
  induction j generalizing s with
  | zero =>
    cases h
    rw [Nat.zero_add]
    rfl
  | succ j ih =>
    obtain ⟨u, hu, hrun⟩ := andThen_eq_next h
    rw [Nat.succ_add, executed_succ hu, executed_succ hu, ih hrun, List.append_assoc]

/-- A run over one more byte executes one more instruction, the one that byte fetches. -/
theorem ByteRun.executed_snoc {s t u : State} {bs : List Byte} {b : Byte} (h : ByteRun s bs t)
    (hu : step (t.offer (.byte b)) = .next u) (later : List Byte) :
    executed (bs ++ [b]).length (s.feed (bs ++ [b] ++ later)) =
      executed bs.length (s.feed (bs ++ b :: later)) ++ [t.fetched b] := by
  rw [List.length_append, List.append_assoc, List.singleton_append, executed_add (h (b :: later))]
  exact congrArg _ (executed_succ (step_feed_cons hu later) 0)

/-! ### Receiving a frame -/

/-- From `s` the bytes, each stored by the instruction listed for it, led to the last state. -/
inductive Received (s : State) : List Byte → List Instr → State → Prop
  | start : Received s [] [] s
  | store {f : List Byte} {is : List Instr} {t u : State} {b : Byte} {st : ParserState} (hr : Received s f is t)
      (hst : storeTarget (t.fetched b) = some st) (hu : step (t.offer (.byte b)) = .next u) :
      Received s (f ++ [b]) (is ++ [t.fetched b]) u

theorem Received.byteRun {s t : State} {f : List Byte} {is : List Instr} (hr : Received s f is t) : ByteRun s f t := by
  induction hr with
  | start => exact .nil s
  | store hr hst hu ih => exact ih.snoc hu

theorem Received.executed {s t : State} {f : List Byte} {is : List Instr} (hr : Received s f is t)
    (later : List Byte) : executed f.length (s.feed (f ++ later)) = is := by
  induction hr generalizing later with
  | start => rfl
  | store hr hst hu ih => rw [hr.byteRun.executed_snoc hu, ih]

/-- What is pending is no part of the invariant. -/
theorem State.Inv.feed {s : State} (h : s.Inv) (bs : List Byte) : (s.feed bs).Inv :=
  ⟨h.canonical, h.tied, h.written, h.armedAfterBoot⟩

/-- What was received has been received byte by byte. -/
theorem Received.take {s t : State} {f : List Byte} {is : List Instr} (hr : Received s f is t) {k : Nat}
    (hk : k ≤ f.length) : ∃ is' t', Received s (f.take k) is' t' := by
  induction hr with
  | start => exact ⟨[], s, by rw [List.take_nil]; exact .start⟩
  | @store f is t u b st hr hst hu ih =>
    by_cases hle : k ≤ f.length
    · rw [List.take_append_of_le_length hle]
      exact ih hle
    · have hall : (f ++ [b]).length ≤ k := by
        rw [List.length_append, List.length_singleton]
        omega
      rw [List.take_of_length_le hall]
      exact ⟨_, u, hr.store hst hu⟩

/-- The cells read as the bytes `f` from cell 0 on, and past them as in `s`. -/
def HoldsBytes (s : State) (f : List Byte) (t : State) : Prop := ∀ a : Fin 32, t.cell a = (f[a.val]?).getD (s.cell a)

theorem HoldsBytes.store {s t u : State} {f : List Byte} {i : Fin 32} {b : Byte} (h : HoldsBytes s f t)
    (hi : i.val = f.length) (hu : StoresOnly t u i b) : HoldsBytes s (f ++ [b]) u := by
  intro a
  rw [hu a, h a]
  obtain hlt | heq | hgt := lt_trichotomy a.val f.length
  · have hne : a ≠ i := by rintro rfl; omega
    rw [if_neg hne, List.getElem?_append_left hlt]
  · rw [if_pos (Fin.ext (heq.trans hi.symm)), heq, List.getElem?_concat_length, Option.getD_some]
  · have hne : a ≠ i := by rintro rfl; omega
    have hlen : (f ++ [b]).length ≤ a.val := by
      rw [List.length_append, List.length_singleton]
      exact hgt
    rw [if_neg hne, List.getElem?_eq_none hgt.le, List.getElem?_eq_none hlen]

theorem HoldsBytes.cell {s t : State} {f : List Byte} (h : HoldsBytes s f t) {a : Fin 32} {b : Byte}
    (hb : f[a.val]? = some b) : t.cell a = b := by
  rw [h a, hb, Option.getD_some]

/-- The snapshot starts with the bytes the cells hold. -/
theorem HoldsBytes.take_snapshot {s t : State} {f : List Byte} (h : HoldsBytes s f t) (hf : f.length ≤ 32) :
    t.snapshot.take f.length = f := by
  apply List.ext_getElem?
  intro n
  by_cases hn : n < f.length
  · have hcell : t.cell ⟨n, hn.trans_le hf⟩ = f[n] := h.cell (List.getElem?_eq_getElem hn)
    rw [List.getElem?_take_of_lt hn, List.getElem?_eq_getElem hn, ← hcell]
    exact snapshot_get t ⟨n, hn.trans_le hf⟩
  · have hlen : (t.snapshot.take f.length).length ≤ n := (List.length_take_le _ _).trans (not_lt.mp hn)
    rw [List.getElem?_eq_none hlen, List.getElem?_eq_none (not_lt.mp hn)]

/-- The machine that hunted at `s` holds the beginning `f` of a frame (R32): the cursor counts its bytes, the cells hold
them, and nothing else but the events has changed. -/
structure HoldsFrame (s : State) (f : List Byte) (t : State) : Prop where
  inv : t.Inv
  armed : t.armed = true
  cursor : t.cursor.val = f.length
  cells : HoldsBytes s f t
  rest : SameRest s t
  events : ∃ evs, EventsOf s t evs ∧ NoDispatch evs ∧ NoResync evs

theorem State.Hunting.holdsFrame {s : State} (h : s.Hunting) : HoldsFrame s [] s where
  inv := h.left
  armed := h.right.left
  cursor := h.left.cursor_of_awaitingHeader1 h.right.right
  cells := fun _ => rfl
  rest := .refl s
  events := ⟨[], .nil s, noDispatch_iff.mpr rfl, noResync_iff.mpr rfl⟩

theorem HoldsFrame.store {s t : State} {f : List Byte} {b : Byte} {st : ParserState} (h : HoldsFrame s f t)
    (hst : storeTarget (t.fetched b) = some st) : HoldsFrame s (f ++ [b]) (h.inv.afterByte b st) where
  inv := h.inv.afterByte_inv hst
  armed := rfl
  cursor := by rw [h.inv.afterByte_cursor, h.cursor, List.length_append, List.length_singleton]
  cells := h.cells.store h.cursor (afterStore_storesOnly t h.inv.cursorCell b _ st)
  rest := h.rest.trans (afterStore_sameRest t h.inv.cursorCell b _ st)
  events := by
    obtain ⟨evs, he, hd, hr⟩ := h.events
    exact ⟨_, he.append (afterStore_events t h.inv.cursorCell b _ st), hd.append (noDispatch_iff.mpr rfl),
      hr.append (noResync_iff.mpr rfl)⟩

theorem Received.holdsFrame {s t : State} {f : List Byte} {is : List Instr} (hr : Received s f is t)
    (h : s.Hunting) : HoldsFrame s f t := by
  induction hr with
  | start => exact h.holdsFrame
  | @store f is t u b st hr hst hu ih =>
    rw [ih.inv.step_storing ih.armed hst] at hu
    cases hu
    exact ih.store hst

/-- A byte that fetches a storing transition is received, and the parser awaits what that transition leads to. -/
theorem Received.next {s t : State} {f : List Byte} {is : List Instr} (hr : Received s f is t) (h : s.Hunting)
    {b : Byte} {i : Instr} {st : ParserState} (hi : t.fetched b = i) (hst : storeTarget i = some st) :
    ∃ u, Received s (f ++ [b]) (is ++ [i]) u ∧ u.state = st := by
  subst hi
  have held := hr.holdsFrame h
  exact ⟨_, hr.store hst (held.inv.step_storing held.armed hst), rfl⟩

/-! ### The frame up to its trailer (R105, R106) -/

section Frame

variable {s : State} (h : s.Hunting)
include h

theorem State.Hunting.received_header1 :
    ∃ t, Received s [Config.header1] [.h1Match] t ∧ t.state = .awaitingHeader2 :=
  Received.start.next h (fetched_header1 s h.right.right) rfl

theorem State.Hunting.received_headers :
    ∃ t, Received s [Config.header1, Config.header2] [.h1Match, .h2Match] t ∧ t.state = .awaitingCommand := by
  obtain ⟨t, hr, hs⟩ := h.received_header1
  exact hr.next h (fetched_header2 t hs) rfl

theorem State.Hunting.received_command (c : Byte) :
    ∃ t, Received s [Config.header1, Config.header2, c] [.h1Match, .h2Match, .cmdStore c] t ∧
      t.state = .awaitingLength := by
  obtain ⟨t, hr, hs⟩ := h.received_headers
  exact hr.next h (fetched_command t c hs) rfl

/-- The payload bytes that the length announces are received up to the last one, which leads to the trailer. -/
theorem Received.payload {t : State} {f : List Byte} {is : List Instr} {b : Byte} {q : List Byte} {l : Byte}
    (hr : Received s f is t) (hs : t.state = .awaitingPayload) (hl : f[3]? = some l)
    (hlen : 4 + l.toNat = f.length + (b :: q).length) :
    ∃ u, Received s (f ++ b :: q) (is ++ payloadTransitions (b :: q)) u ∧ u.state = .awaitingEnd := by
  induction q generalizing t f is b with
  | nil =>
    have held := hr.holdsFrame h
    have htl : t.len = l := held.cells.cell hl
    have hlast : t.cursor.val + 1 = 4 + t.len.toNat := by rw [held.cursor, htl, hlen]; rfl
    exact hr.next h (fetched_lastPayload t b hs hlast) rfl
  | cons b' q ih =>
    have held := hr.holdsFrame h
    have htl : t.len = l := held.cells.cell hl
    have hmore : t.cursor.val + 1 < 4 + t.len.toNat := by
      rw [held.cursor, htl, hlen, List.length_cons, List.length_cons]
      omega
    obtain ⟨u, hru, hus⟩ := hr.next h (fetched_payloadBeforeLast t b hs hmore) rfl
    have hl' : (f ++ [b])[3]? = some l := (List.getElem?_append_left (List.getElem?_eq_some_iff.mp hl).1).trans hl
    have hlen' : 4 + l.toNat = (f ++ [b]).length + (b' :: q).length := by
      rw [hlen, List.length_append, List.length_cons, List.length_singleton]
      omega
    obtain ⟨v, hrv, hvs⟩ := ih hru hus hl' hlen'
    rw [List.append_assoc, List.append_assoc] at hrv
    exact ⟨v, hrv, hvs⟩

end Frame

/-- A dispatchable frame without its trailer. -/
def frameBody (c : Byte) (p : List Byte) : List Byte :=
  [Config.header1, Config.header2, c, BitVec.ofNat 8 p.length] ++ p

theorem dispatchable_eq (c : Byte) (p : List Byte) (e : Byte) : dispatchable c p e = frameBody c p ++ [e] := rfl

theorem length_frameBody (c : Byte) (p : List Byte) : (frameBody c p).length = 4 + p.length := by
  rw [frameBody, List.length_append]
  rfl

theorem length_dispatchable (c : Byte) (p : List Byte) (e : Byte) : (dispatchable c p e).length = 5 + p.length := by
  rw [dispatchable_eq, List.length_append, length_frameBody, List.length_singleton]
  omega

/-- The transitions of a dispatchable frame up to its trailer. -/
def bodyTransitions (c : Byte) (p : List Byte) : List Instr :=
  [.h1Match, .h2Match, .cmdStore c] ++
    (if p.length = 0 then [.lenEmpty] else .lenPayload (BitVec.ofNat 8 p.length) :: payloadTransitions p)

theorem frameTransitions_eq (c : Byte) (p : List Byte) (e : Byte) :
    frameTransitions c p e = bodyTransitions c p ++ [.endDispatch e] := rfl

theorem toNat_length {p : List Byte} (hp : p.length ≤ 27) : (BitVec.ofNat 8 p.length).toNat = p.length := by
  rw [BitVec.toNat_ofNat]
  omega

/-- A hunting parser receives a dispatchable frame up to its trailer (R106). -/
theorem State.Hunting.received_body {s : State} (h : s.Hunting) (c : Byte) {p : List Byte} (hp : p.length ≤ 27) :
    ∃ t, Received s (frameBody c p) (bodyTransitions c p) t ∧ t.state = .awaitingEnd := by
  obtain ⟨t, hr, hs⟩ := h.received_command c
  cases p with
  | nil => exact hr.next h (fetched_zeroLength t hs) rfl
  | cons b q =>
    have hn : (BitVec.ofNat 8 (b :: q).length).toNat = (b :: q).length := toNat_length hp
    have h1 : 1 ≤ (BitVec.ofNat 8 (b :: q).length).toNat := by
      rw [hn]
      exact Nat.le_add_left 1 q.length
    have h27 : (BitVec.ofNat 8 (b :: q).length).toNat ≤ 27 := hn.trans_le hp
    obtain ⟨u, hru, hus⟩ := hr.next h (fetched_legalLength t _ hs h1 h27) rfl
    exact hru.payload h hus rfl (congrArg (4 + ·) hn)

/-! ### The trailer (R93, R106) -/

/-- A dispatchable frame that found the parser hunting at `s`: the interpreter ran at `mid`, reported `ok`, and the
trailer's step ended at `u`. -/
structure FrameRun (s : State) (c : Byte) (p : List Byte) (e : Byte) (mid u : State) (ok : Bool) : Prop where
  run : ByteRun s (dispatchable c p e) u
  executed : executed (dispatchable c p e).length (s.feed (dispatchable c p e)) = frameTransitions c p e
  hunting : u.Hunting
  input : u.input = s.input
  cells : HoldsBytes s (dispatchable c p e) mid
  sensor : mid.sensor = s.sensor
  interp : interpret mid = .next { mid with sensor := u.sensor, trace := mid.trace ++ [.interpResult ok] }
  events : ∃ evs, EventsOf s u (evs ++ [.dispatch (dispatchable c p e).length mid.snapshot (e == Config.endMarker),
    .interpResult ok, .rearm]) ∧ NoDispatch evs ∧ NoResync evs

/-- In `AwaitingEnd` every byte is the trailer: its step is the dispatch. -/
theorem trailer_step {t u : State} {e : Byte} (hs : t.state = .awaitingEnd) (hu : step (t.offer (.byte e)) = .next u) :
    ∃ (hc : t.cursor.val < 32) (r : SensorState) (ok : Bool), u = afterDispatch t e hc r ok ∧
      interpret (atDispatch t e hc) =
        .next { atDispatch t e hc with sensor := r, trace := (atDispatch t e hc).trace ++ [.interpResult ok] } := by
  obtain ⟨_, hstep⟩ := byteStep_of_next t u e hu
  obtain ⟨_, _, hevs⟩ := hstep.events
  cases hevs with
  | quiet _ _ hend => exact absurd hs hend
  | badHeader2 hbad => exact absurd hbad (not_badHeader2_of_state hs (by decide))
  | oversizeLength hlen => exact absurd hlen (not_oversizeLength_of_state hs (by decide))
  | dispatch _ hc r ok _ _ hi ht => exact ⟨hc, r, ok, ht, hi⟩

theorem afterDispatch_events (t : State) (e : Byte) (hc : t.cursor.val < 32) (r : SensorState) (ok : Bool) :
    EventsOf t (afterDispatch t e hc r ok) ([.stored ⟨t.cursor.val, hc⟩ e] ++
      [.dispatch (t.cursor.val + 1) (atDispatch t e hc).snapshot (e == Config.endMarker), .interpResult ok, .rearm]) :=
  rfl

theorem State.Hunting.frameRun {s : State} (h : s.Hunting) (c : Byte) {p : List Byte} (hp : p.length ≤ 27) (e : Byte) :
    ∃ mid u ok, FrameRun s c p e mid u ok := by
  obtain ⟨t, hr, hs⟩ := h.received_body c hp
  have held := hr.holdsFrame h
  obtain ⟨u, hu, hinv, harmed⟩ := held.inv.step_byte held.armed e
  obtain ⟨hc, r, ok, hafter, hinterp⟩ := trailer_step hs hu
  have hsize : t.cursor.val + 1 = (dispatchable c p e).length := by
    rw [held.cursor, dispatchable_eq, List.length_append, List.length_singleton]
  obtain ⟨evs, he, hd, hres⟩ := held.events
  refine ⟨atDispatch t e hc, u, ok, ?_⟩
  subst hafter
  exact {
    run := hr.byteRun.snoc hu
    executed := by
      have hx := hr.byteRun.executed_snoc hu []
      rw [hr.executed, List.append_nil, fetched_trailer t e hs] at hx
      rw [frameTransitions_eq]
      exact hx
    hunting := ⟨hinv, harmed, rfl⟩
    input := held.rest.input
    cells := held.cells.store held.cursor (atDispatch_storesOnly t e ⟨t.cursor.val, hc⟩ rfl hc)
    sensor := held.rest.sensor
    interp := hinterp
    events := by
      rw [← hsize]
      refine ⟨evs ++ [.stored ⟨t.cursor.val, hc⟩ e], ?_, hd.append (noDispatch_iff.mpr rfl),
        hres.append (noResync_iff.mpr rfl)⟩
      rw [List.append_assoc]
      exact he.append (afterDispatch_events t e hc r ok) }

section FrameRun

variable {s mid u : State} {c e : Byte} {p : List Byte} {ok : Bool} (run : FrameRun s c p e mid u ok)
include run

theorem FrameRun.command : mid.cell 2 = c := run.cells.cell (a := 2) rfl

theorem FrameRun.len (hp : p.length ≤ 27) : mid.len.toNat = p.length := by
  have hlen : mid.len = BitVec.ofNat 8 p.length := run.cells.cell (a := 3) rfl
  rw [hlen, toNat_length hp]

theorem FrameRun.runSteps {n : Nat} (hn : p.length + 5 = n) : runSteps n (s.feed (dispatchable c p e)) = .next u := by
  rw [← hn, Nat.add_comm, ← length_dispatchable c p e]
  exact run.run.runSteps

theorem FrameRun.take_snapshot (hp : p.length ≤ 27) :
    mid.snapshot.take (dispatchable c p e).length = dispatchable c p e :=
  run.cells.take_snapshot (by rw [length_dispatchable]; omega)

/-- What the row of the frame's command does is what the frame does to the record. -/
theorem FrameRun.of_row {k : Command} {fields : SensorState}
    (hrow : exec (decodeCommand c) mid = .next (afterRow mid k fields)) :
    ok = longEnough mid k ∧
      u.sensor = if longEnough mid k = true then { fields with unread := true } else s.sensor := by
  have hinterp := run.interp
  rw [interpret_eq_exec, run.command, hrow, Host.Outcome.next.injEq] at hinterp
  have htrace : [Event.interpResult (longEnough mid k)] = [.interpResult ok] :=
    List.append_cancel_left (congrArg State.trace hinterp)
  have hsensor := congrArg State.sensor hinterp
  rw [← run.sensor]
  exact ⟨(Event.interpResult.inj (List.head_eq_of_cons_eq htrace)).symm, hsensor.symm⟩

/-- A payload as long as the command's shape needs is delivered under either setting of the length check. -/
theorem FrameRun.delivered (hp : p.length ≤ 27) {k : Command} (hk : minLen k ≤ p.length) {fields : SensorState}
    (hrow : exec (decodeCommand c) mid = .next (afterRow mid k fields)) :
    u.sensor = { fields with unread := true } := by
  obtain ⟨_, hsensor⟩ := run.of_row hrow
  rwa [longEnough_of_le mid (hk.trans_eq (run.len hp).symm), if_pos rfl] at hsensor

end FrameRun

/-- The row of a `Reset` response as a row with a length check, which it always passes. -/
theorem exec_reset_eq_afterRow (s : State) : exec .reset s = .next (afterRow s .reset s.sensor) := by
  rw [exec_reset, afterRow, longEnough_of_le s (Nat.zero_le _), interpretOk_eq, if_pos rfl]

/-! ### Rejected attempts and stray header bytes (R107, R172) -/

/-- A byte that sends the parser from the frame it holds back to the hunt, with no dispatch. -/
theorem Received.rejected {s t u : State} {f : List Byte} {is : List Instr} {b : Byte} {evs : List Event}
    (hr : Received s f is t) (h : s.Hunting) (hu : step (t.offer (.byte b)) = .next u)
    (hs : u.state = .awaitingHeader1) (he : EventsOf t u evs) (hd : NoDispatch evs) (hrest : SameRest t u) :
    ByteRun s (f ++ [b]) u ∧ u.Hunting ∧
      ∃ evs', EventsOf s u (evs' ++ evs) ∧ NoDispatch (evs' ++ evs) ∧ SameRest s u := by
  have held := hr.holdsFrame h
  obtain ⟨evs', he', hd', _⟩ := held.events
  exact ⟨hr.byteRun.snoc hu, ⟨held.inv.step_offer_inv hu, armed_of_next hu, hs⟩, evs', he'.append he, hd'.append hd,
    held.rest.trans hrest⟩

end Sys2Proof.Machine

/-! ### The statements -/

namespace Sys2Proof.Proofs

open Sys2Proof Sys2Proof.Machine

/-- Settles O32: the frame is received up to its trailer, whose step is the dispatch of what is stored. -/
theorem frameIsDispatchedExactlyOnce : Obligations.FrameIsDispatchedExactlyOnce := by
  intro s c p e h hp
  obtain ⟨mid, u, ok, run⟩ := h.frameRun c hp e
  obtain ⟨evs, he, hd, hr⟩ := run.events
  have hcursor := run.hunting.left.cursor_of_awaitingHeader1 run.hunting.right.right
  exact ⟨run.executed, u, evs, mid.snapshot, ok, run.run.runSteps, run.hunting, hcursor, run.input, he, hd, hr,
    run.take_snapshot hp⟩

/-- Settles O33: the first bytes of the frame, fewer than all of it, are received before its trailer. -/
theorem frameBytesStandInArrivalOrder : Obligations.FrameBytesStandInArrivalOrder := by
  intro s c p e k h hp hk
  obtain ⟨t, hr, _⟩ := h.received_body c hp
  have hkb : k ≤ (frameBody c p).length := by
    rw [dispatchable_eq, List.length_append] at hk
    exact Nat.le_of_lt_succ hk
  obtain ⟨is, u, hru⟩ := hr.take hkb
  have held := hru.holdsFrame h
  have hlen : ((frameBody c p).take k).length = k := List.length_take_of_le hkb
  have hsplit : dispatchable c p e = (frameBody c p).take k ++ ((frameBody c p).drop k ++ [e]) := by
    rw [dispatchable_eq, ← List.append_assoc, List.take_append_drop]
  have hrun := hru.byteRun ((frameBody c p).drop k ++ [e])
  rw [hlen, ← hsplit] at hrun
  refine ⟨_, hrun, held.cursor.trans hlen, held.inv.feed _, fun i hi => ?_⟩
  have hget : ((frameBody c p).take k)[i.val]? = some ((frameBody c p).take k)[i.val] :=
    List.getElem?_eq_getElem (hi.trans_eq hlen.symm)
  rw [feed_cell, held.cells.cell hget, hsplit, List.getElem?_append_left (hi.trans_eq hlen.symm), hget]

/-- The attempt of a hunting parser with a bad second header byte (R107). -/
theorem bad_header2_attempt {s : State} (h : s.Hunting) {b : Byte} (hb : b ≠ 0xAA) :
    ∃ t evs, ByteRun s [0x55, b] t ∧ t.Hunting ∧ EventsOf s t evs ∧ NoDispatch evs ∧
      Event.resync .badHeader2 ∈ evs ∧ SameRest s t := by
  obtain ⟨t, hr, hs⟩ := h.received_header1
  obtain ⟨hstep, u, hu, hus, _, _, _, he, hrest⟩ := badSecondHeaderResynchronizes t b (hr.holdsFrame h).armed hs hb
  obtain ⟨hrun, hh, evs, he', hd', hrest'⟩ := hr.rejected h (hstep.trans hu) hus he (noDispatch_iff.mpr rfl) hrest
  exact ⟨u, _, hrun, hh, he', hd', by simp, hrest'⟩

/-- The attempt of a hunting parser with an oversize length (R107). -/
theorem oversize_length_attempt {s : State} (h : s.Hunting) (c : Byte) {l : Byte} (hl : 28 ≤ l.toNat) :
    ∃ t evs, ByteRun s [0x55, 0xAA, c, l] t ∧ t.Hunting ∧ EventsOf s t evs ∧ NoDispatch evs ∧
      Event.resync .oversizeLength ∈ evs ∧ SameRest s t := by
  obtain ⟨t, hr, hs⟩ := h.received_command c
  have held := hr.holdsFrame h
  obtain ⟨hstep, u, hu, hus, _, _, _, he, hrest⟩ := oversizeLengthResynchronizes t l held.inv held.armed hs hl
  obtain ⟨hrun, hh, evs, he', hd', hrest'⟩ := hr.rejected h (hstep.trans hu) hus he (noDispatch_iff.mpr rfl) hrest
  exact ⟨u, _, hrun, hh, he', hd', by simp, hrest'⟩

/-- Settles O34: each attempt is received up to the byte that it is rejected on. -/
theorem rejectedAttemptIsNeverDispatched : Obligations.RejectedAttemptIsNeverDispatched := by
  constructor
  · intro s b h hb
    obtain ⟨t, evs, hrun, ht⟩ := bad_header2_attempt h hb
    exact ⟨t, evs, hrun.runSteps, ht⟩
  · intro s c l h hl
    obtain ⟨t, evs, hrun, ht⟩ := oversize_length_attempt h c hl
    exact ⟨t, evs, hrun.runSteps, ht⟩

/-- Where `k` stray 0x55 bytes and the two header bytes leave a hunting parser (R172): two stray bytes are a rejected
attempt, so only whether `k` is even matters. -/
theorem stray_header_bytes (k : Nat) (s : State) (h : s.Hunting) :
    ∃ t evs, ByteRun s (List.replicate k 0x55 ++ [0x55, 0xAA]) t ∧
      t.state = (if k % 2 = 0 then .awaitingCommand else .awaitingHeader1) ∧
      t.cursor.val = (if k % 2 = 0 then 2 else 0) ∧ EventsOf s t evs ∧ NoDispatch evs ∧ SameRest s t := by
  induction k using Nat.twoStepInduction generalizing s with
  | zero =>
    obtain ⟨t, hr, hs⟩ := h.received_headers
    have held := hr.holdsFrame h
    obtain ⟨evs, he, hd, _⟩ := held.events
    exact ⟨t, evs, hr.byteRun, hs, held.cursor, he, hd, held.rest⟩
  | one =>
    obtain ⟨t, evs, hrun, hh, he, hd, _, hrest⟩ := bad_header2_attempt h (b := 0x55) (by decide)
    obtain ⟨hu, hh'⟩ := hh.step_ignored (b := 0xAA) (by decide)
    exact ⟨_, _, hrun.snoc hu, hh'.right.right, hh'.left.cursor_of_awaitingHeader1 hh'.right.right,
      he.append (ignored_events t 0xAA), hd.append (noDispatch_iff.mpr rfl), hrest.trans (ignored_sameRest t 0xAA)⟩
  | more k ih _ =>
    obtain ⟨t, evs, hrun, hh, he, hd, _, hrest⟩ := bad_header2_attempt h (b := 0x55) (by decide)
    obtain ⟨u, evs', hrun', hs, hc, he', hd', hrest'⟩ := ih t hh
    rw [Nat.add_mod_right]
    exact ⟨u, _, hrun.append hrun', hs, hc, he.append he', hd.append hd', hrest.trans hrest'⟩

/-- Settles O35: stray bytes are rejected in pairs, after which the header matches; the last of an odd number takes
`HEADER1` for its second header byte, and `HEADER2` is then ignored. -/
theorem oddStrayHeaderBytesLoseTheFrame : Obligations.OddStrayHeaderBytesLoseTheFrame := by
  intro s k h
  obtain ⟨t, evs, hrun, ht⟩ := stray_header_bytes k s h
  have hsteps := hrun.runSteps
  rw [List.length_append, List.length_replicate] at hsteps
  exact ⟨t, evs, hsteps, ht⟩

/-- Settles O37: the row of the frame's command passes its length check and reads the cells, which hold the payload. -/
theorem framesDeliverTheirPayload : Obligations.FramesDeliverTheirPayload := by
  refine ⟨?_, ?_, ?_⟩
  · intro s b0 b1 b2 e q h hq
    have hp : ([b0, b1, b2] ++ q).length ≤ 27 := Nat.add_le_add_right hq 3
    obtain ⟨mid, u, ok, run⟩ := h.frameRun 0x81 hp e
    refine ⟨u, run.runSteps rfl, ?_⟩
    rw [run.delivered hp (Nat.le_add_left 3 _) (exec_measure mid), measureFields, run.sensor,
      run.cells.cell (a := 4) rfl, run.cells.cell (a := 5) rfl, run.cells.cell (a := 6) rfl]
  · intro s b0 b1 b2 e q h hq
    have hp : ([b0, b1, b2] ++ q).length ≤ 27 := Nat.add_le_add_right hq 3
    obtain ⟨mid, u, ok, run⟩ := h.frameRun 0x86 hp e
    refine ⟨u, run.runSteps rfl, ?_⟩
    rw [run.delivered hp (Nat.le_add_left 3 _) (exec_getProductInfo mid), productFields, run.sensor,
      run.cells.cell (a := 4) rfl, run.cells.cell (a := 5) rfl, run.cells.cell (a := 6) rfl]
  · intro s b0 b1 b2 b3 b4 b5 b6 e q h hq
    have hp : ([b0, b1, b2, b3, b4, b5, b6] ++ q).length ≤ 27 := Nat.add_le_add_right hq 7
    obtain ⟨mid, u, ok, run⟩ := h.frameRun 0x85 hp e
    refine ⟨u, run.runSteps rfl, ?_⟩
    rw [run.delivered hp (Nat.le_add_left 7 _) (exec_getFactoryDefaultSettings mid), factoryFields, run.sensor,
      run.cells.cell (a := 4) rfl, run.cells.cell (a := 5) rfl, run.cells.cell (a := 6) rfl,
      run.cells.cell (a := 7) rfl, run.cells.cell (a := 8) rfl, run.cells.cell (a := 9) rfl,
      run.cells.cell (a := 10) rfl]

/-- Settles O38: a request is a frame without payload, whose trailer stands in cell 4 and whose row reads on in stale
cells. -/
theorem requestFedBackIsDispatched : Obligations.RequestFedBackIsDispatched := by
  intro s c h
  obtain ⟨mid, u, ok, run⟩ := h.frameRun (commandCode c) (p := []) (Nat.zero_le 27) 0xFA
  obtain ⟨evs, he, hd, _⟩ := run.events
  refine ⟨run.executed, u, evs, mid.snapshot, ok, run.run.runSteps, run.hunting, he, hd, ?_, ?_⟩
  · rintro rfl
    obtain ⟨hok, hsensor⟩ := run.of_row (exec_measure mid)
    have hlong : longEnough mid .measure = !Config.interpLenCheck := by
      rw [longEnough, run.len (Nat.zero_le 27)]
      rfl
    have h4 : mid.cell 4 = 0xFA := run.cells.cell (a := 4) rfl
    have h5 : mid.cell 5 = s.cell 5 := run.cells 5
    have h6 : mid.cell 6 = s.cell 6 := run.cells 6
    rw [hlong] at hok hsensor
    rw [hok, hsensor, measureFields, run.sensor, h4, h5, h6]
    cases Config.interpLenCheck with
    | true => exact ⟨rfl, rfl⟩
    | false => exact ⟨rfl, rfl⟩
  · rintro rfl
    obtain ⟨hok, hsensor⟩ := run.of_row (exec_reset_eq_afterRow mid)
    rw [longEnough_of_le mid (Nat.zero_le _)] at hok hsensor
    exact ⟨hok, hsensor.trans (by rw [if_pos rfl, run.sensor])⟩

end Sys2Proof.Proofs
end
